-- ==== Sys2Proof/Word.lean ====
section
/-! DEFINITION. The widths FSYNC moves (20_memory.md R45): bytes of the buffer and the transport, 16-bit and 32-bit
fields, 32-bit host registers. -/

namespace Sys2Proof

/-- One byte of the buffer or of the transport stream. -/
abbrev Byte := BitVec 8

/-- A 16-bit field, or one of the 16-bit positions `CUR` and `SCAN_FROM` (10_state.md R16). -/
abbrev Half := BitVec 16

/-- A 32-bit host register (10_state.md R23). -/
abbrev Word := BitVec 32

end Sys2Proof
end

