-- ==== Sys2Proof/Config.lean ====
section
/-! DEFINITION. The named parameters of 00_scope.md R7 and D30, which the model takes as an argument; the names of the
sample fields and of the host registers; and the one free value: the Env's draw at a `Read`. -/

namespace Sys2Proof

/-- The 24 fields of a sample, in the order of 42_decoder.md R93 and 10_state.md R35. -/
inductive Field where
  | yaw | pitch | roll | compass | altitude | fused
  | accX | accY | accZ | velX | velY | velZ | dispX | dispY | dispZ
  | quatW | quatX | quatY | quatZ | temp
  | stOp | stSensor | stCal | stSelftest
  deriving DecidableEq, Repr

/-- One value for each sample field: the samples themselves, and the tables of field offsets and scales. -/
structure PerField (α : Type) where
  yaw : α
  pitch : α
  roll : α
  compass : α
  altitude : α
  fused : α
  accX : α
  accY : α
  accZ : α
  velX : α
  velY : α
  velZ : α
  dispX : α
  dispY : α
  dispZ : α
  quatW : α
  quatX : α
  quatY : α
  quatZ : α
  temp : α
  stOp : α
  stSensor : α
  stCal : α
  stSelftest : α
  deriving DecidableEq, Repr

/-- The named registers of the window (10_state.md R23). -/
inductive Reg where
  | ctrl | status | cmd | result | cursor | bufLen | scanFrom
  | frameCnt | spuriousCnt | shortCnt | bufCap | snap | viewSeq
  | view (f : Field)
  deriving DecidableEq, Repr

/-- The named parameters of 00_scope.md R7 with the field offsets and scales that D30 and U14 add, but for `BLOCK_BASE`,
which is the platform's (log 5). Every definition that depends on one takes it from here (log 18). -/
structure Params where
  /-- `MARKER`: the byte that starts a candidate frame. -/
  marker : Byte
  /-- `TERM`: the byte at frame offset `L`. -/
  term : Byte
  /-- `LEN_OFF`: the frame offset of the length byte. -/
  lenOff : Nat
  /-- `SLACK`, in bytes. -/
  slack : Nat
  /-- `MIN_FRAME`: the least length byte of a frame that is decoded. -/
  minFrame : Nat
  /-- `POLL_IDLE` in milliseconds. No rule depends on it (43_poller.md R105, 70_reset_and_hazards.md R138): the model is
  untimed (log 13). -/
  pollIdleMs : Nat
  /-- `BUF_CAP` (also 10_state.md R32), in bytes. -/
  bufCap : Nat
  /-- `CNT_W`: the width in bits of an event counter. -/
  cntW : Nat
  /-- The frame offset of each field (30_encoding.md R54, D30). -/
  fieldOffsets : PerField Nat
  /-- The divisor of each field (30_encoding.md R54, 42_decoder.md R96, D30). -/
  fieldScales : PerField Nat
  deriving DecidableEq, Repr

/-- The constraint of 00_scope.md R7 on `BUF_CAP`: 766 ≤ `BUF_CAP` ≤ 65535 (R8 says why). -/
abbrev Params.inRange (p : Params) : Prop := 766 ≤ p.bufCap ∧ p.bufCap ≤ 65535

namespace Config

/-- The size in bytes of the host register window (10_state.md R23). -/
def windowSize : Nat := 0x1000

/-- FREE VALUE (20_memory.md R38, U9): the Env's choice of how many bytes a `Read` returns, before it is held to the
bound `min(n, |RXQ|)`. It is applied to the count of earlier free draws (log 3). -/
opaque readDraw : Nat → Nat

end Config

end Sys2Proof
end

