-- ==== Sys2Proof/Syntax.lean ====
section
/-! DEFINITION. The instructions of FSYNC: the eight host commands of 30_encoding.md R58 and the `SNAP` register write of
43_poller.md R101, one constructor per row of spec/opcode_table.json. -/

namespace Sys2Proof

/-- A host instruction. `idx` is the absolute buffer index `IDX` of 30_encoding.md R57, a natural number. -/
inductive Instr where
  /-- `NOP` (41_frame_buffer.md R85). -/
  | nop
  /-- `NEXT` (41_frame_buffer.md R80). -/
  | next
  /-- `FIND idx` (40_synchronizer.md R72). -/
  | find (idx : Nat)
  /-- `EXT8U idx` (42_decoder.md R88). -/
  | ext8u (idx : Nat)
  /-- `EXT16U idx` (42_decoder.md R89). -/
  | ext16u (idx : Nat)
  /-- `EXT16S idx` (42_decoder.md R90). -/
  | ext16s (idx : Nat)
  /-- `EXT32S idx` (42_decoder.md R91). -/
  | ext32s (idx : Nat)
  /-- `CLEAR` (41_frame_buffer.md R84). -/
  | clear
  /-- `SNAP` (43_poller.md R101): a write of any value to offset 0x02C. -/
  | snap
  deriving DecidableEq, Repr

end Sys2Proof
end

