-- ==== Sys2Proof/WellFormed.lean ====
section
/-! DEFINITION. When an instruction can be encoded: the operand of an indexed command lies in `0 … 65535`
(30_encoding.md R57, R62). -/

namespace Sys2Proof

/-- The operand `idx` of an indexed command is an unsigned 16-bit number (30_encoding.md R62). -/
abbrev IndexFits (idx : Nat) : Prop := idx < 65536

/-- The check of 30_encoding.md R57 and R62, instruction by instruction. -/
def wellFormed (i : Instr) : Bool :=
  match i with
  | .nop => true
  | .next => true
  | .find idx => decide (IndexFits idx)
  | .ext8u idx => decide (IndexFits idx)
  | .ext16u idx => decide (IndexFits idx)
  | .ext16s idx => decide (IndexFits idx)
  | .ext32s idx => decide (IndexFits idx)
  | .clear => true
  | .snap => true

end Sys2Proof
end

