-- ==== Sys2Proof/Decode.lean ====
section
/-! DEFINITION. The register map (10_state.md R23), the decoder of a host write (30_encoding.md R57 to R60), and the
encoder (30_encoding.md R62). -/

namespace Sys2Proof

/-! ### The register map -/

/-- Every sample field, in register order (10_state.md R35). -/
def allFields : List Field :=
  [.yaw, .pitch, .roll, .compass, .altitude, .fused, .accX, .accY, .accZ, .velX, .velY, .velZ,
   .dispX, .dispY, .dispZ, .quatW, .quatX, .quatY, .quatZ, .temp, .stOp, .stSensor, .stCal, .stSelftest]

/-- Every named register of the window, in offset order (10_state.md R23). -/
def allRegs : List Reg :=
  [.ctrl, .status, .cmd, .result, .cursor, .bufLen, .scanFrom, .frameCnt, .spuriousCnt, .shortCnt, .bufCap, .snap,
   .viewSeq] ++ allFields.map Reg.view

/-- The window offset of a field's `VIEW_*` register (10_state.md R35). -/
def viewOffset (f : Field) : Nat :=
  match f with
  | .yaw => 0x040
  | .pitch => 0x044
  | .roll => 0x048
  | .compass => 0x04C
  | .altitude => 0x050
  | .fused => 0x054
  | .accX => 0x058
  | .accY => 0x05C
  | .accZ => 0x060
  | .velX => 0x064
  | .velY => 0x068
  | .velZ => 0x06C
  | .dispX => 0x070
  | .dispY => 0x074
  | .dispZ => 0x078
  | .quatW => 0x07C
  | .quatX => 0x080
  | .quatY => 0x084
  | .quatZ => 0x088
  | .temp => 0x08C
  | .stOp => 0x090
  | .stSensor => 0x094
  | .stCal => 0x098
  | .stSelftest => 0x09C

/-- The window offset of a register (10_state.md R23). -/
def regOffset (r : Reg) : Nat :=
  match r with
  | .ctrl => 0x000
  | .status => 0x004
  | .cmd => 0x008
  | .result => 0x00C
  | .cursor => 0x010
  | .bufLen => 0x014
  | .scanFrom => 0x018
  | .frameCnt => 0x01C
  | .spuriousCnt => 0x020
  | .shortCnt => 0x024
  | .bufCap => 0x028
  | .snap => 0x02C
  | .viewSeq => 0x030
  | .view f => viewOffset f

/-- The register at a window offset, `none` where the offset is reserved (10_state.md R23, R24). -/
def regAt (off : Nat) : Option Reg :=
  allRegs.find? (fun r => regOffset r == off)

/-! ### The command word -/

/-- `OP`, bits 3:0 of a command word (30_encoding.md R57). -/
def opField (w : Word) : BitVec 4 := w.extractLsb' 0 4

/-- The reserved bits 15:4 of a command word (30_encoding.md R57). -/
def reservedField (w : Word) : BitVec 12 := w.extractLsb' 4 12

/-- `IDX = uint_16(w[31:16])` (30_encoding.md R57). -/
def idxField (w : Word) : Nat := (w.extractLsb' 16 16).toNat

/-- Why a host write is no instruction. -/
inductive Reject where
  /-- `OP ≥ 0x8` (30_encoding.md R59 (a)). -/
  | reservedOpcode
  /-- `w[15:4] ≠ 0` (30_encoding.md R59 (b)). -/
  | reservedBits
  /-- `NOP`, `NEXT` or `CLEAR` with `w[31:16] ≠ 0` (30_encoding.md R59 (c)). -/
  | strayIndex
  /-- The write goes to a register other than `CMD` and `SNAP`: it carries no instruction. -/
  | notInstruction
  /-- The bytes are not the four lanes of one 32-bit word (20_memory.md R42, R44). -/
  | notAWord
  deriving DecidableEq, Repr

/-- A command that takes no operand: its `IDX` bits must be 0 (30_encoding.md R59 (c)). -/
def withoutIndex (w : Word) (i : Instr) : Except Reject Instr :=
  if idxField w = 0 then .ok i else .error .strayIndex

/-- The command of a word written to `CMD`, by the opcode map of 30_encoding.md R58; a word that matches no row is
illegal (R59). -/
def decodeCmd (w : Word) : Except Reject Instr :=
  if reservedField w ≠ 0 then .error .reservedBits
  else
    match (opField w).toNat with
    | 0 => withoutIndex w .nop
    | 1 => withoutIndex w .next
    | 2 => .ok (.find (idxField w))
    | 3 => .ok (.ext8u (idxField w))
    | 4 => .ok (.ext16u (idxField w))
    | 5 => .ok (.ext16s (idxField w))
    | 6 => .ok (.ext32s (idxField w))
    | 7 => withoutIndex w .clear
    | _ => .error .reservedOpcode

/-- An aligned 32-bit host write of `value` to the window offset `offset`. -/
structure HostWrite where
  offset : Nat
  value : Word
  deriving DecidableEq, Repr

/-- The instruction of a host write: a command word written to `CMD` (30_encoding.md R57), or any write to `SNAP`
(10_state.md R33). A write to any other offset is no instruction. -/
def decode (h : HostWrite) : Except Reject Instr :=
  match regAt h.offset with
  | some .cmd => decodeCmd h.value
  | some .snap => .ok .snap
  | _ => .error .notInstruction

/-! ### Bus lanes (20_memory.md R42) -/

/-- Byte lane `k` of a register: bits `8k+7 … 8k` (20_memory.md R42). -/
def lane (w : Word) (k : Nat) : Byte := w.extractLsb' (8 * k) 8

/-- The four bytes of a word, the lowest address first (20_memory.md R42). -/
def lanesOf (w : Word) : List Byte := [lane w 0, lane w 1, lane w 2, lane w 3]

/-- The word whose byte lanes 0 to 3 are `b0` to `b3` (20_memory.md R42). -/
def wordOfLanes (b0 b1 b2 b3 : Byte) : Word := b3 ++ b2 ++ b1 ++ b0

/-- The command of four bytes as the bus carries them to `CMD`, total on any list of bytes. -/
def decodeBytes (bytes : List Byte) : Except Reject Instr :=
  match bytes with
  | [b0, b1, b2, b3] => decodeCmd (wordOfLanes b0 b1 b2 b3)
  | _ => .error .notAWord

/-! ### Encoding (30_encoding.md R62) -/

/-- `enc(MN) = (idx << 16) | OP(MN)` (30_encoding.md R62). -/
def cmdWord (op idx : Nat) : Word := (BitVec.ofNat 32 idx <<< 16) ||| BitVec.ofNat 32 op

/-- The host write that carries an instruction (30_encoding.md R62, R63; `snap` is `wr SNAP, 0`). -/
def encode (i : Instr) : HostWrite :=
  match i with
  | .nop => ⟨regOffset .cmd, cmdWord 0 0⟩
  | .next => ⟨regOffset .cmd, cmdWord 1 0⟩
  | .find idx => ⟨regOffset .cmd, cmdWord 2 idx⟩
  | .ext8u idx => ⟨regOffset .cmd, cmdWord 3 idx⟩
  | .ext16u idx => ⟨regOffset .cmd, cmdWord 4 idx⟩
  | .ext16s idx => ⟨regOffset .cmd, cmdWord 5 idx⟩
  | .ext32s idx => ⟨regOffset .cmd, cmdWord 6 idx⟩
  | .clear => ⟨regOffset .cmd, cmdWord 7 0⟩
  | .snap => ⟨regOffset .snap, 0⟩

/-! ### The host's question: a word of the opcode table -/

/-- The word of an opcode-table row: its `nbits` lowest bits, zero above. -/
def tableWord (nbits w : Nat) : Word := BitVec.ofNat 32 (w % 2 ^ nbits)

/-- The instruction of an opcode-table word. Rows of the format CMD32 are words written to `CMD`; the one row that gives
no bit at all (`nbits = 0`) is `SNAP`, whose word is ignored (log 16). -/
def decodeTableWord (nbits w : Nat) : Option Instr :=
  if nbits = 0 then some .snap
  else if 32 < nbits then none
  else
    match decodeBytes (lanesOf (tableWord nbits w)) with
    | .ok i => some i
    | .error _ => none

end Sys2Proof
end

