-- ==== Sys2Proof/Machine/Parameters.lean ====
section
/-! DEFINITION. This hardware's value of each parameter (00_scope.md R7, 30_encoding.md R54, D30), and the lookup of a
field in a table over the fields. -/

namespace Sys2Proof

/-- The entry of a field. -/
def PerField.get {α : Type} (t : PerField α) (f : Field) : α :=
  match f with
  | .yaw => t.yaw
  | .pitch => t.pitch
  | .roll => t.roll
  | .compass => t.compass
  | .altitude => t.altitude
  | .fused => t.fused
  | .accX => t.accX
  | .accY => t.accY
  | .accZ => t.accZ
  | .velX => t.velX
  | .velY => t.velY
  | .velZ => t.velZ
  | .dispX => t.dispX
  | .dispY => t.dispY
  | .dispZ => t.dispZ
  | .quatW => t.quatW
  | .quatX => t.quatX
  | .quatY => t.quatY
  | .quatZ => t.quatZ
  | .temp => t.temp
  | .stOp => t.stOp
  | .stSensor => t.stSensor
  | .stCal => t.stCal
  | .stSelftest => t.stSelftest

/-- The frame offset of a field (30_encoding.md R54). -/
def fieldOffset (p : Params) (f : Field) : Nat := p.fieldOffsets.get f

/-- The divisor of a field (30_encoding.md R54, 42_decoder.md R96). -/
def fieldScale (p : Params) (f : Field) : Nat := p.fieldScales.get f

namespace Config

/-- This hardware's field offsets (30_encoding.md R54). -/
def wireOffsets : PerField Nat :=
  { yaw := 4, pitch := 6, roll := 8, compass := 10, altitude := 12, fused := 16, accX := 18, accY := 20,
    accZ := 22, velX := 24, velY := 28, velZ := 32, dispX := 36, dispY := 40, dispZ := 44, quatW := 48,
    quatX := 50, quatY := 52, quatZ := 54, temp := 56, stOp := 58, stSensor := 59, stCal := 60, stSelftest := 61 }

/-- This hardware's field scales (30_encoding.md R54). -/
def wireScales : PerField Nat :=
  { yaw := 100, pitch := 100, roll := 100, compass := 100, altitude := 65536, fused := 100, accX := 1000, accY := 1000,
    accZ := 1000, velX := 65536, velY := 65536, velZ := 65536, dispX := 65536, dispY := 65536, dispZ := 65536, quatW := 1,
    quatX := 1, quatY := 1, quatZ := 1, temp := 100, stOp := 1, stSensor := 1, stCal := 1, stSelftest := 1 }

/-- This hardware's value of each parameter (00_scope.md R7, D30, log 18). -/
def hardware : Params :=
  { marker := 0x21
    term := 0x0D
    lenOff := 2
    slack := 256
    minFrame := 62
    pollIdleMs := 100
    bufCap := 4096
    cntW := 32
    fieldOffsets := wireOffsets
    fieldScales := wireScales }

end Config

end Sys2Proof
end

