-- ==== Sys2Proof/Machine/State.lean ====
section
/-! DEFINITION. The state of FSYNC (10_state.md R15 to R20), the transport environment it reads from (R21, 20_memory.md
R38), the pending steps of the three agents (00_scope.md R12), and the reasons a step can stop. -/

namespace Sys2Proof.Machine

/-- `SYNC` (10_state.md R16). The encoding 3 is never held, so it has no constructor (U7). -/
inductive Sync where
  | empty | locked | hunt
  deriving DecidableEq, Repr

/-- The four sticky error bits of `STATUS` (10_state.md R26, 60_exceptions.md R111 to R114). -/
inductive ErrorBit where
  | busy | illegal | bounds | short
  deriving DecidableEq, Repr

/-- One decoded sample: 24 registers of 32 bits (10_state.md R17, 42_decoder.md R94). -/
abbrev Sample := PerField Word

/-- Every field 0: the reset contents of `PUB` and `VIEW` (70_reset_and_hazards.md R126). -/
def Sample.zero : Sample :=
  { yaw := 0, pitch := 0, roll := 0, compass := 0, altitude := 0, fused := 0, accX := 0, accY := 0, accZ := 0,
    velX := 0, velY := 0, velZ := 0, dispX := 0, dispY := 0, dispZ := 0, quatW := 0, quatX := 0, quatY := 0,
    quatZ := 0, temp := 0, stOp := 0, stSensor := 0, stCal := 0, stSelftest := 0 }

/-- The reassembly buffer's contents as (index, byte) cells, in the canonical form of `Memory.wf`. -/
abbrev Memory := List Host.Cell

/-- One pending step of an agent, or an input from outside the block. The order of the steps is free (U15); `script`
lists them (log 1). -/
inductive Event where
  /-- Host: a read of `bytes` bytes at the host byte address `addr` (00_scope.md R9, R12). -/
  | hostRead (addr bytes : Nat)
  /-- Host: a write of `bytes` bytes of `value` at the host byte address `addr` (00_scope.md R9, R12). -/
  | hostWrite (addr bytes : Nat) (value : Word)
  /-- Loop: one poll iteration (43_poller.md R104). -/
  | loop
  /-- Env: bytes appended to the end of `RXQ` (20_memory.md R39). -/
  | envAppend (bytes : List Byte)
  /-- The transport is removed or stops being a byte queue (70_reset_and_hazards.md R137, U2). -/
  | transportGone
  /-- FSYNC is reset (70_reset_and_hazards.md R126). -/
  | reset
  deriving DecidableEq, Repr

/-- Why a step stops. No fault is architectural: FSYNC has no trap (60_exceptions.md R110). -/
inductive Fault where
  /-- A host access outside the 4 KiB window: raised by `hostRead` and `hostWrite`. The spec gives FSYNC no address there
  (20_memory.md R37). Safe: the model stops where the access is not FSYNC's (log 9). -/
  | outsideWindow
  /-- A host access of a width other than 4 bytes: raised by `hostRead` and `hostWrite` (20_memory.md R44, U1). Safe: U1
  names the fault. -/
  | accessWidth
  /-- A host access at an address that is not a multiple of 4: raised by `hostRead` and `hostWrite` (20_memory.md R44,
  U1). Safe: U1 names the fault. -/
  | misaligned
  /-- The transport is gone and `Avail()` or a Loop step is asked for: raised by `NEXT` and by Loop steps
  (70_reset_and_hazards.md R137, U2). Safe: U2 defines no further step (log 10). -/
  | transportGone
  deriving DecidableEq, Repr

/-- Why an instruction is refused. -/
inductive Refusal where
  /-- The instruction has no meaning in the model yet: raised by an arm of `exec` only. Safe: the model stops. No arm
  raises it now. -/
  | notModelled (mnemonic : String)
  deriving DecidableEq, Repr

/-- The state of FSYNC and of the environment its rules read. -/
structure State where
  /-- `BUF` (10_state.md R15), as the cells of its bytes. -/
  buf : Memory
  /-- `BUF_LEN` (10_state.md R15): a natural number. -/
  bufLen : Nat
  /-- `SYNC` (10_state.md R16). -/
  sync : Sync
  /-- `CUR` (10_state.md R16). -/
  cur : Half
  /-- `SCAN_FROM` (10_state.md R16). -/
  scanFrom : Half
  /-- `PUB` (10_state.md R17). -/
  pub : Sample
  /-- `PUB_VALID` (10_state.md R17). -/
  pubValid : Bool
  /-- `VIEW` (10_state.md R18). -/
  view : Sample
  /-- `VIEW_VALID` (10_state.md R18). -/
  viewValid : Bool
  /-- `VIEW_SEQN` (10_state.md R18). -/
  viewSeqn : BitVec 31
  /-- `RUN` (10_state.md R19). -/
  run : Bool
  /-- `RUNNING` (10_state.md R19). -/
  running : Bool
  /-- `FRAME_CNT` (10_state.md R20, R31), counted modulo 2^`CNT_W`. -/
  frameCnt : Word
  /-- `SPURIOUS_CNT` (10_state.md R20, R31), counted modulo 2^`CNT_W`. -/
  spuriousCnt : Word
  /-- `SHORT_CNT` (10_state.md R20, R31), counted modulo 2^`CNT_W`. -/
  shortCnt : Word
  /-- `RESULT` (10_state.md R20). -/
  result : Word
  /-- `ERR_BUSY` (10_state.md R20). -/
  errBusy : Bool
  /-- `ERR_ILLEGAL` (10_state.md R20). -/
  errIllegal : Bool
  /-- `ERR_BOUNDS` (10_state.md R20). -/
  errBounds : Bool
  /-- `ERR_SHORT` (10_state.md R20). -/
  errShort : Bool
  /-- `RXQ`, the transport's queue, oldest byte first (10_state.md R21). Environment state. -/
  rxq : List Byte
  /-- The transport is a byte queue (U2). Environment state. -/
  transportUp : Bool
  /-- The Env's draws for the coming `Read`s, the next one first (20_memory.md R38, U9). Environment state. -/
  draws : List Nat
  /-- MODEL's own field: how many `Read`s took a free draw because `draws` was empty (log 3). -/
  drawCount : Nat
  /-- MODEL's own field: the coming steps, the next one first (U15, log 1). -/
  script : List Event
  /-- MODEL's own field: the value the last host read returned (log 7). -/
  busData : Word
  /-- The parameter `BLOCK_BASE` (10_state.md R23, U11), never written (log 5). -/
  blockBase : Nat
  /-- The named parameters of 00_scope.md R7 and D30, never written (log 18). -/
  params : Params
  deriving DecidableEq, Repr

/-- The machine right after reset (70_reset_and_hazards.md R126), with an empty transport queue (log 4), no draw fixed
(log 3), no pending step (log 1), nothing read yet (log 7), the window at 0 (log 5) and this hardware's parameters
(00_scope.md R7, log 18). -/
def State.reset : State :=
  { buf := []
    bufLen := 0
    sync := .empty
    cur := 0
    scanFrom := 0
    pub := Sample.zero
    pubValid := false
    view := Sample.zero
    viewValid := false
    viewSeqn := 0
    run := true
    running := true
    frameCnt := 0
    spuriousCnt := 0
    shortCnt := 0
    result := 0
    errBusy := false
    errIllegal := false
    errBounds := false
    errShort := false
    rxq := []
    transportUp := true
    draws := []
    drawCount := 0
    script := []
    busData := 0
    blockBase := 0
    params := Config.hardware }

end Sys2Proof.Machine
end

