-- ==== Sys2Proof/Machine/Ops.lean ====
section
/-! DEFINITION. The named operations over the state: the reassembly buffer, the sync position, raising and clearing an
error (FSYNC's whole notion of an exception and of its return, 60_exceptions.md R110, R116, R120), the transport
primitives, and reset. -/

namespace Sys2Proof.Machine

/-- The result of a step of this machine. -/
abbrev StepResult := Host.Outcome State Fault Refusal

/-! ### The reassembly buffer -/

/-- What a byte of `BUF` that nothing has written reads as (U3 allows any value; log 6). -/
def Memory.unlisted : Byte := 0x00

/-- `BUF[a]` (00_scope.md R9, 10_state.md R15). -/
def Memory.read (m : List Host.Cell) (a : Nat) : Byte :=
  match m with
  | [] => Memory.unlisted
  | (k, b) :: rest => if k = a then b else Memory.read rest a

/-- The cells of the bytes `bytes` from index `i` on, in canonical form. -/
def Memory.ofBytesFrom (i : Nat) (bytes : List Byte) : List Host.Cell :=
  match bytes with
  | [] => []
  | b :: rest =>
    if b = Memory.unlisted then Memory.ofBytesFrom (i + 1) rest else (i, b) :: Memory.ofBytesFrom (i + 1) rest

/-- A buffer that holds `bytes` from index 0 and nothing else. -/
def Memory.ofBytes (bytes : List Byte) : Memory := Memory.ofBytesFrom 0 bytes

/-- The canonical form from index `lo` on: indices strictly rising, no cell equal to what an unlisted index reads as. -/
def Memory.wfFrom (lo : Nat) (m : List Host.Cell) : Bool :=
  match m with
  | [] => true
  | (k, b) :: rest => decide (lo ≤ k) && (b != Memory.unlisted) && Memory.wfFrom (k + 1) rest

/-- The canonical form of a buffer's cells. -/
def Memory.wf (m : Memory) : Bool := Memory.wfFrom 0 m

/-- `BUF[0:BUF_LEN]`, the valid bytes of the buffer in order (10_state.md R15, 00_scope.md R9). -/
def State.bytes (s : State) : List Byte := (List.range s.bufLen).map (Memory.read s.buf)

/-- `BUF <- bytes; BUF_LEN <- |bytes|`. What stands beyond `BUF_LEN` afterwards is unspecified (10_state.md R15, U3). -/
def State.setBuffer (bytes : List Byte) (s : State) : State :=
  { s with buf := Memory.ofBytes bytes, bufLen := bytes.length }

/-! ### The sync position -/

/-- `SYNC <- sync; CUR <- cur; SCAN_FROM <- scanFrom` (10_state.md R16). The two indices are exact below 2^16, which they
are in every reachable state (00_scope.md R8, log 15). -/
def State.setPosition (sync : Sync) (cur scanFrom : Nat) (s : State) : State :=
  { s with sync := sync, cur := BitVec.ofNat 16 cur, scanFrom := BitVec.ofNat 16 scanFrom }

/-! ### Results, counters and the sample banks -/

/-- `RESULT <- w` (10_state.md R28). -/
def State.setResult (w : Word) (s : State) : State := { s with result := w }

/-- An event counter that held `c` after `n` more events: the sum modulo 2^`CNT_W` (60_exceptions.md R118, 00_scope.md
R7). -/
def counterAfter (p : Params) (c : Word) (n : Nat) : Word := BitVec.ofNat 32 ((c.toNat + n) % 2 ^ p.cntW)

/-- `SPURIOUS_CNT <- (SPURIOUS_CNT + n) mod 2^CNT_W` (60_exceptions.md R118). -/
def State.addSpurious (n : Nat) (s : State) : State := { s with spuriousCnt := counterAfter s.params s.spuriousCnt n }

/-- `SHORT_CNT <- (SHORT_CNT + 1) mod 2^CNT_W` (60_exceptions.md R114, R118). -/
def State.countShort (s : State) : State := { s with shortCnt := counterAfter s.params s.shortCnt 1 }

/-- `Publish(P)` (43_poller.md R100). -/
def State.publish (p : Sample) (s : State) : State :=
  { s with pub := p, pubValid := true, frameCnt := counterAfter s.params s.frameCnt 1 }

/-- The snapshot of 43_poller.md R101: `VIEW <- PUB; VIEW_VALID <- PUB_VALID; VIEW_SEQN <- FRAME_CNT mod 2^31`. -/
def State.snapshot (s : State) : State :=
  { s with view := s.pub, viewValid := s.pubValid, viewSeqn := s.frameCnt.setWidth 31 }

/-! ### Errors: FSYNC's exceptions -/

/-- `raise E` (00_scope.md R9, 60_exceptions.md R110): `STATUS.E <- 1` and nothing else. It saves no state and goes to no
vector (R120). -/
def State.raise (e : ErrorBit) (s : State) : State :=
  match e with
  | .busy => { s with errBusy := true }
  | .illegal => { s with errIllegal := true }
  | .bounds => { s with errBounds := true }
  | .short => { s with errShort := true }

/-- A host write of `v` to `STATUS`: each W1C bit 4 to 7 with `v[i] = 1` is cleared (10_state.md R26). This is the only
"return" from an error (60_exceptions.md R116). -/
def State.clearErrors (v : Word) (s : State) : State :=
  { s with
    errBusy := s.errBusy && !v.getLsbD 4
    errIllegal := s.errIllegal && !v.getLsbD 5
    errBounds := s.errBounds && !v.getLsbD 6
    errShort := s.errShort && !v.getLsbD 7 }

/-- A command runs only while the loop is stopped: with `RUNNING = 1` the write raises `ERR_BUSY` and nothing else changes
(30_encoding.md R60 step 1, 60_exceptions.md R111). -/
def whenStopped (s : State) (act : State → StepResult) : StepResult :=
  if s.running then .next (s.raise .busy) else act s

/-- A word that is no command (30_encoding.md R59, R60 step 2, 60_exceptions.md R112). -/
def illegalWord (s : State) : StepResult :=
  whenStopped s (fun s => .next (s.raise .illegal))

/-! ### Run control -/

/-- A host write of `v` to `CTRL` (43_poller.md R103). -/
def State.writeCtrl (v : Word) (s : State) : State :=
  { s with run := v.getLsbD 0, running := s.running || v.getLsbD 0 }

/-- The loop observes `RUN = 0` and exits: `RUNNING <- 0` (43_poller.md R104). -/
def State.exitLoop (s : State) : State := { s with running := false }

/-! ### The transport (20_memory.md R38, R39) -/

/-- `Avail()`: the number of bytes in `RXQ`. A transport that is gone has no answer (U2). -/
def avail (s : State) : Except Fault Nat :=
  if s.transportUp then .ok s.rxq.length else .error .transportGone

/-- The Env's choice for the next `Read`: the next draw of `draws`, else a free value (U9, log 3). -/
def nextDraw (s : State) : Nat :=
  match s.draws with
  | d :: _ => d
  | [] => Config.readDraw s.drawCount

/-- `k` of `Read(n)`: the Env's choice held to `0 ≤ k ≤ min(n, |RXQ|)` (20_memory.md R38). -/
def readCount (n : Nat) (s : State) : Nat := min (nextDraw s) (min n s.rxq.length)

/-- The bytes `Read(n)` returns: the first `k` of `RXQ` (20_memory.md R38). -/
def readBytes (n : Nat) (s : State) : List Byte := s.rxq.take (readCount n s)

/-- The state after `Read(n)`: its bytes have left `RXQ` and its draw is used up (20_memory.md R38, R47). -/
def State.afterRead (n : Nat) (s : State) : State :=
  { s with
    rxq := s.rxq.drop (readCount n s)
    draws := s.draws.tail
    drawCount := if s.draws.isEmpty then s.drawCount + 1 else s.drawCount }

/-- An Env step: `bytes` appended to the end of `RXQ` (20_memory.md R39). -/
def State.appendRx (bytes : List Byte) (s : State) : State := { s with rxq := s.rxq ++ bytes }

/-- The transport is gone (U2). -/
def State.loseTransport (s : State) : State := { s with transportUp := false }

/-! ### The interface -/

/-- The value a host read returns (20_memory.md R47). -/
def State.setBusData (w : Word) (s : State) : State := { s with busData := w }

/-- The pending steps after the next one was taken. -/
def State.setScript (es : List Event) (s : State) : State := { s with script := es }

/-- Reset (70_reset_and_hazards.md R126): every piece of FSYNC state takes its reset value; `RXQ`, the rest of the
environment and the parameters are not changed. -/
def State.applyReset (s : State) : State :=
  { State.reset with
    rxq := s.rxq
    transportUp := s.transportUp
    draws := s.draws
    drawCount := s.drawCount
    script := s.script
    busData := s.busData
    blockBase := s.blockBase
    params := s.params }

end Sys2Proof.Machine
end

