-- ==== Sys2Proof/Machine/Operands.lean ====
section
/-! DEFINITION. The operand forms: the extraction primitives and their bounds rule (42_decoder.md R86, R87), the extensions
(00_scope.md R9), and the value of a sample field by its offset, form and scale (30_encoding.md R54). -/

namespace Sys2Proof.Machine

/-! ### Extraction (42_decoder.md R86) -/

/-- `Get8(i) = BUF[i]` (42_decoder.md R86). -/
def get8 (s : State) (i : Nat) : Byte := Memory.read s.buf i

/-- `Get16(i) = BUF[i+1] ++ BUF[i]` (42_decoder.md R86). -/
def get16 (s : State) (i : Nat) : Half := get8 s (i + 1) ++ get8 s i

/-- `Get32(i) = BUF[i+3] ++ BUF[i+2] ++ BUF[i+1] ++ BUF[i]` (42_decoder.md R86). -/
def get32 (s : State) (i : Nat) : Word := get8 s (i + 3) ++ get8 s (i + 2) ++ get8 s (i + 1) ++ get8 s i

/-- A primitive of `w` bytes at index `i` is in bounds iff `i + w ≤ BUF_LEN` (42_decoder.md R87). -/
def inBounds (s : State) (i w : Nat) : Bool := decide (i + w ≤ s.bufLen)

/-- `zext_32(v)` (00_scope.md R9). -/
def zext32 {n : Nat} (v : BitVec n) : Word := v.setWidth 32

/-- `sext_32(v)` (00_scope.md R9). -/
def sext32 {n : Nat} (v : BitVec n) : Word := v.signExtend 32

/-! ### The wire format (30_encoding.md R54) -/

/-- The form of a raw field: how many bytes it has and how it extends to 32 bits (30_encoding.md R54, 10_state.md R35). -/
inductive FieldForm where
  /-- signed 16 bits, sign-extended -/
  | signed16
  /-- unsigned 16 bits, zero-extended -/
  | unsigned16
  /-- Q16.16: 32 bits, as they are -/
  | q16
  /-- uint8, zero-extended -/
  | byte
  deriving DecidableEq, Repr

/-- The form of a field (30_encoding.md R54). -/
def fieldForm (f : Field) : FieldForm :=
  match f with
  | .yaw | .pitch | .roll => .signed16
  | .compass => .unsigned16
  | .altitude => .q16
  | .fused => .unsigned16
  | .accX | .accY | .accZ => .signed16
  | .velX | .velY | .velZ | .dispX | .dispY | .dispZ => .q16
  | .quatW | .quatX | .quatY | .quatZ | .temp => .signed16
  | .stOp | .stSensor | .stCal | .stSelftest => .byte

/-- How many bytes a form has (30_encoding.md R54). -/
def formWidth (form : FieldForm) : Nat :=
  match form with
  | .signed16 => 2
  | .unsigned16 => 2
  | .q16 => 4
  | .byte => 1

/-- The 32-bit extension of the raw field of the form `form` at buffer index `i` (42_decoder.md R93, 10_state.md R35). -/
def formValue (form : FieldForm) (s : State) (i : Nat) : Word :=
  match form with
  | .signed16 => sext32 (get16 s i)
  | .unsigned16 => zext32 (get16 s i)
  | .q16 => get32 s i
  | .byte => zext32 (get8 s i)

/-- The value of the field `f` of the frame that starts at `c` (42_decoder.md R93). -/
def fieldValue (s : State) (c : Nat) (f : Field) : Word := formValue (fieldForm f) s (c + fieldOffset s.params f)

/-! ### What a raw value stands for (42_decoder.md R96, R97) -/

/-- `int(raw)` (42_decoder.md R96): `sint_32` for sign-extended and Q16.16 fields, `uint_32` for zero-extended fields. -/
def fieldInt (f : Field) (raw : Word) : Int :=
  match fieldForm f with
  | .signed16 => raw.toInt
  | .unsigned16 => (raw.toNat : Int)
  | .q16 => raw.toInt
  | .byte => (raw.toNat : Int)

/-- The physical value of a field, the exact rational `int(raw) / scale` (42_decoder.md R96). -/
def fieldScaled (p : Params) (f : Field) (raw : Word) : ℚ := (fieldInt f raw : ℚ) / (fieldScale p f : ℚ)

end Sys2Proof.Machine
end

