-- ==== Sys2Proof/Machine/Flags.lean ====
section
/-! DEFINITION. The register words: `STATUS`, `CURSOR`, the `RESULT` formats, and the value a read of each register returns
(10_state.md R24 to R35, 30_encoding.md R61). -/

namespace Sys2Proof.Machine

/-! ### STATUS and the other computed registers -/

/-- The 2-bit code of `SYNC` (10_state.md R16, R26). -/
def syncCode (y : Sync) : BitVec 2 :=
  match y with
  | .empty => 0
  | .locked => 1
  | .hunt => 2

/-- `STATUS` (10_state.md R26): bits 31:8 reserved 0, then `ERR_SHORT`, `ERR_BOUNDS`, `ERR_ILLEGAL`, `ERR_BUSY`, `SYNC`,
`PUB_VALID`, `RUNNING`. -/
def statusWord (s : State) : Word :=
  (0 : BitVec 24) ++ BitVec.ofBool s.errShort ++ BitVec.ofBool s.errBounds ++ BitVec.ofBool s.errIllegal ++
    BitVec.ofBool s.errBusy ++ syncCode s.sync ++ BitVec.ofBool s.pubValid ++ BitVec.ofBool s.running

/-- `CURSOR` (10_state.md R29): `(SYNC = LOCKED ? 1 : 0) << 31 | zext_32(CUR)`. -/
def cursorWord (s : State) : Word :=
  ((if s.sync = .locked then (1 : Word) else 0) <<< 31) ||| zext32 s.cur

/-- `VIEW_SEQ` (10_state.md R34): `VIEW_VALID << 31 | zext_32(VIEW_SEQN)`. -/
def viewSeqWord (s : State) : Word :=
  (zext32 (BitVec.ofBool s.viewValid) <<< 31) ||| zext32 s.viewSeqn

/-- What a read of a register returns (10_state.md R25 to R35). -/
def readReg (r : Reg) (s : State) : Word :=
  match r with
  | .ctrl => zext32 (BitVec.ofBool s.run)
  | .status => statusWord s
  | .cmd => 0
  | .result => s.result
  | .cursor => cursorWord s
  | .bufLen => zext32 (BitVec.ofNat 16 s.bufLen)
  | .scanFrom => zext32 s.scanFrom
  | .frameCnt => zext32 s.frameCnt
  | .spuriousCnt => zext32 s.spuriousCnt
  | .shortCnt => zext32 s.shortCnt
  | .bufCap => BitVec.ofNat 32 s.params.bufCap
  | .snap => 0
  | .viewSeq => viewSeqWord s
  | .view f => s.view.get f

/-- What a read at a window offset returns; a reserved offset reads 0 (10_state.md R24). -/
def readOffset (off : Nat) (s : State) : Word :=
  match regAt off with
  | some r => readReg r s
  | none => 0

/-! ### The RESULT formats (30_encoding.md R61) -/

/-- The outcome of `NextCore` (41_frame_buffer.md R79, 30_encoding.md R61). -/
inductive FrameCode where
  | sample | noData | noFrame | short
  deriving DecidableEq, Repr

/-- `CODE` (30_encoding.md R61). -/
def frameCodeWord (c : FrameCode) : Word :=
  match c with
  | .sample => 0
  | .noData => 1
  | .noFrame => 2
  | .short => 3

/-- `RESULT` after `NEXT` (41_frame_buffer.md R80): `(zext_32(L) << 8) | code`. -/
def nextResult (c : FrameCode) (len : Byte) : Word := (zext32 len <<< 8) ||| frameCodeWord c

/-- The result of `Scan` (40_synchronizer.md R64). -/
inductive ScanResult where
  | found (t : Nat)
  | incomplete (t : Nat)
  | none
  deriving DecidableEq, Repr

/-- `RESULT` after `FIND` (40_synchronizer.md R72). -/
def findResult (s : State) (r : ScanResult) : Word :=
  match r with
  | .found t => (BitVec.ofNat 32 t <<< 16) ||| (zext32 (get8 s (t + s.params.lenOff)) <<< 8)
  | .incomplete t => (BitVec.ofNat 32 t <<< 16) ||| 1
  | .none => 2

end Sys2Proof.Machine
end

