-- ==== Sys2Proof/Machine/Extractor.lean ====
section
/-! DEFINITION. The extract commands (42_decoder.md R87 to R91) and the frame decoder (R92 to R95). -/

namespace Sys2Proof.Machine

/-- The shape of the four extract commands: the bounds rule of 42_decoder.md R87 for `w` bytes at `idx`, then `value`. -/
def extract (idx w : Nat) (value : State → Word) (s : State) : StepResult :=
  whenStopped s (fun s =>
    if inBounds s idx w then .next (s.setResult (value s)) else .next ((s.raise .bounds).setResult 0))

/-- `EXT8U idx` (42_decoder.md R88). -/
def execExt8u (idx : Nat) (s : State) : StepResult := extract idx 1 (fun s => zext32 (get8 s idx)) s

/-- `EXT16U idx` (42_decoder.md R89). -/
def execExt16u (idx : Nat) (s : State) : StepResult := extract idx 2 (fun s => zext32 (get16 s idx)) s

/-- `EXT16S idx` (42_decoder.md R90). -/
def execExt16s (idx : Nat) (s : State) : StepResult := extract idx 2 (fun s => sext32 (get16 s idx)) s

/-- `EXT32S idx` (42_decoder.md R91). -/
def execExt32s (idx : Nat) (s : State) : StepResult := extract idx 4 (fun s => get32 s idx) s

/-- `Decode(c)` (42_decoder.md R93): each field of the frame at `c` by its offset and form. -/
def decodeFrame (s : State) (c : Nat) : Sample :=
  { yaw := fieldValue s c .yaw
    pitch := fieldValue s c .pitch
    roll := fieldValue s c .roll
    compass := fieldValue s c .compass
    altitude := fieldValue s c .altitude
    fused := fieldValue s c .fused
    accX := fieldValue s c .accX
    accY := fieldValue s c .accY
    accZ := fieldValue s c .accZ
    velX := fieldValue s c .velX
    velY := fieldValue s c .velY
    velZ := fieldValue s c .velZ
    dispX := fieldValue s c .dispX
    dispY := fieldValue s c .dispY
    dispZ := fieldValue s c .dispZ
    quatW := fieldValue s c .quatW
    quatX := fieldValue s c .quatX
    quatY := fieldValue s c .quatY
    quatZ := fieldValue s c .quatZ
    temp := fieldValue s c .temp
    stOp := fieldValue s c .stOp
    stSensor := fieldValue s c .stSensor
    stCal := fieldValue s c .stCal
    stSelftest := fieldValue s c .stSelftest }

end Sys2Proof.Machine
end

