-- ==== Sys2Proof/Machine/Synchronizer.lean ====
section
/-! DEFINITION. The frame synchronizer: `Scan` (40_synchronizer.md R64 to R71) and the command `FIND` (R72). -/

namespace Sys2Proof.Machine

/-- The loop of 40_synchronizer.md R65 from index `t` on, where `suffix` is `S[t:n]` and `s` the spurious markers met so
far. Index `t + LEN_OFF` or `t + L` of `S` lies at or beyond `n` exactly when index `LEN_OFF` or `L` of the suffix is absent
(log 11). -/
def scanSuffix (p : Params) (t s : Nat) (suffix : List Byte) : ScanResult × Nat :=
  match suffix with
  | [] => (.none, s)
  | b :: rest =>
    if b = p.marker then
      match (b :: rest)[p.lenOff]? with
      | none => (.incomplete t, s)
      | some len =>
        match (b :: rest)[len.toNat]? with
        | none => (.incomplete t, s)
        | some e => if e = p.term then (.found t, s) else scanSuffix p (t + 1) (s + 1) rest
    else scanSuffix p (t + 1) s rest

/-- `Scan(S, |S|, from)` (40_synchronizer.md R65): the result and the count of spurious markers. -/
def scan (p : Params) (bytes : List Byte) (start : Nat) : ScanResult × Nat := scanSuffix p start 0 (bytes.drop start)

/-- `FIND idx` (40_synchronizer.md R72). -/
def execFind (idx : Nat) (s : State) : StepResult :=
  whenStopped s (fun s => .next (s.setResult (findResult s (scan s.params s.bytes idx).1)))

end Sys2Proof.Machine
end

