-- ==== Sys2Proof/Machine/FrameBuffer.lean ====
section
/-! DEFINITION. The frame buffer and its boundary state machine: `Ingest`, the slack check, `Advance`, `NextCore`
(41_frame_buffer.md R73 to R79), and the commands `NEXT`, `CLEAR`, `NOP` (R80, R84, R85). -/

namespace Sys2Proof.Machine

/-! ### Ingest (41_frame_buffer.md R73) -/

/-- The bytes an ingest keeps: none in EMPTY, `BUF[CUR:BUF_LEN]` in LOCKED, `BUF[SCAN_FROM:BUF_LEN]` in HUNT. Their number
is `keep` (41_frame_buffer.md R73). -/
def retained (s : State) : List Byte :=
  match s.sync with
  | .empty => []
  | .locked => s.bytes.drop s.cur.toNat
  | .hunt => s.bytes.drop s.scanFrom.toNat

/-- `n = min(a, BUF_CAP - keep)`: how many bytes an ingest asks for (41_frame_buffer.md R73). -/
def ingestRequest (a : Nat) (s : State) : Nat := min a (s.params.bufCap - (retained s).length)

/-- The EMPTY case of 41_frame_buffer.md R73 with the new bytes `got`: the buffer begins at the first validated frame of
them, or they are discarded. -/
def ingestEmpty (got : List Byte) (s : State) : State :=
  match scan s.params got 0 with
  | (.found t, n) => ((s.addSpurious n).setBuffer (got.drop t)).setPosition .locked 0 s.scanFrom.toNat
  | (.incomplete _, n) => (s.addSpurious n).setBuffer []
  | (.none, n) => (s.addSpurious n).setBuffer []

/-- The LOCKED case of 41_frame_buffer.md R73: the new bytes behind the bytes from `CUR` on. -/
def ingestLocked (got : List Byte) (s : State) : State :=
  (s.setBuffer (s.bytes.drop s.cur.toNat ++ got)).setPosition s.sync 0 s.scanFrom.toNat

/-- The HUNT case of 41_frame_buffer.md R73: `B` is the new bytes behind the bytes from `SCAN_FROM` on, scanned again. -/
def ingestHunt (got : List Byte) (s : State) : State :=
  let b := s.bytes.drop s.scanFrom.toNat ++ got
  match scan s.params b 0 with
  | (.found t, n) => ((s.addSpurious n).setBuffer (b.drop t)).setPosition .locked 0 0
  | (.incomplete t, n) => ((s.addSpurious n).setBuffer (b.drop t)).setPosition .hunt s.cur.toNat 0
  | (.none, n) => ((s.addSpurious n).setBuffer []).setPosition .hunt s.cur.toNat 0

/-- `Ingest(a)` (41_frame_buffer.md R73), where `a = Avail()` of the same step: one `Read`, then the case of `SYNC`. -/
def ingest (a : Nat) (s : State) : State :=
  let n := ingestRequest a s
  let got := readBytes n s
  let s' := s.afterRead n
  match s.sync with
  | .empty => ingestEmpty got s'
  | .locked => ingestLocked got s'
  | .hunt => ingestHunt got s'

/-! ### The current frame (41_frame_buffer.md R76 to R78) -/

/-- `L = uint_8(BUF[CUR+LEN_OFF])`, the length byte of the frame at `CUR` (41_frame_buffer.md R76). -/
def frameLen (s : State) : Byte := get8 s (s.cur.toNat + s.params.lenOff)

/-- The current frame is too close to the tail: `CUR + L + SLACK > BUF_LEN` (41_frame_buffer.md R76). -/
def tooCloseToTail (s : State) : Bool :=
  decide (s.bufLen < s.cur.toNat + (frameLen s).toNat + s.params.slack)

/-- `Advance(from)` (41_frame_buffer.md R78). -/
def advance (start : Nat) (s : State) : State :=
  match scan s.params s.bytes start with
  | (.found t, n) => (s.addSpurious n).setPosition s.sync t s.scanFrom.toNat
  | (.incomplete t, n) => (s.addSpurious n).setPosition .hunt 0 t
  | (.none, n) => (s.addSpurious n).setPosition .hunt 0 s.bufLen

/-! ### NextCore (41_frame_buffer.md R79) -/

/-- The outcome `(code, L)` of `NextCore` with the state it leaves. -/
structure FrameOutcome where
  code : FrameCode
  len : Byte
  state : State
  deriving DecidableEq, Repr

/-- The source's steps 3 to 6 on the frame at `CUR` (41_frame_buffer.md R79): publish it, or skip it with `ERR_SHORT` when
`L < MIN_FRAME`; then advance past its terminator. -/
def takeFrame (s : State) : FrameOutcome :=
  let len := frameLen s
  let past := s.cur.toNat + len.toNat + 1
  if s.params.minFrame ≤ len.toNat then
    { code := .sample, len := len, state := advance past (s.publish (decodeFrame s s.cur.toNat)) }
  else
    { code := .short, len := len, state := advance past (s.raise .short).countShort }

/-- The check and ingest shared by steps 1 and 2 (41_frame_buffer.md R79): with fewer than `SLACK` bytes available nothing
happens, else ingest and go on with `cont`. -/
def refill (s : State) (cont : State → FrameOutcome) : Except Fault FrameOutcome :=
  match avail s with
  | .error f => .error f
  | .ok a => if a < s.params.slack then .ok { code := .noData, len := 0, state := s } else .ok (cont (ingest a s))

/-- Step 1's end (41_frame_buffer.md R79): `NO_FRAME` unless the ingest found a frame. -/
def takeIfLocked (s : State) : FrameOutcome :=
  if s.sync = .locked then takeFrame s else { code := .noFrame, len := 0, state := s }

/-- `NextCore()` (41_frame_buffer.md R79). Its only fault is a transport that is gone (U2, log 10). -/
def nextCore (s : State) : Except Fault FrameOutcome :=
  match s.sync with
  | .empty => refill s takeIfLocked
  | .hunt => refill s takeIfLocked
  | .locked => if tooCloseToTail s then refill s takeFrame else .ok (takeFrame s)

/-! ### The commands -/

/-- `NEXT` (41_frame_buffer.md R80). -/
def execNext (s : State) : StepResult :=
  whenStopped s (fun s =>
    match nextCore s with
    | .error f => .fault f
    | .ok o => .next (o.state.setResult (nextResult o.code o.len)))

/-- `CLEAR` (41_frame_buffer.md R84). -/
def execClear (s : State) : StepResult :=
  whenStopped s (fun s => .next (((s.setBuffer []).setPosition .empty 0 0).setResult 0))

/-- `NOP` (41_frame_buffer.md R85). -/
def execNop (s : State) : StepResult :=
  whenStopped s (fun s => .next s)

end Sys2Proof.Machine
end

