-- ==== Sys2Proof/Machine/Poller.lean ====
section
/-! DEFINITION. The poll loop's iteration (43_poller.md R104) and the snapshot `SNAP` (R101). -/

namespace Sys2Proof.Machine

/-- `SNAP` (43_poller.md R101): accepted whether `RUNNING` is 0 or 1. -/
def execSnap (s : State) : StepResult := .next s.snapshot

/-- A Loop step that is enabled (43_poller.md R104): the exit when `RUN = 0`, else `NextCore`, whose `RESULT` is not
written. The idle that follows `NO_DATA` and `NO_FRAME` writes no state (R105, log 13). A transport that is gone leaves the
Loop no next step (U2, log 10). -/
def loopIter (s : State) : StepResult :=
  if s.transportUp then
    if s.run then
      match nextCore s with
      | .error f => .fault f
      | .ok o => .next o.state
    else .next s.exitLoop
  else .fault .transportGone

/-- The Loop agent's turn: enabled iff `RUNNING = 1` (43_poller.md R104, 10_state.md R22 INV5); a turn of a stopped loop
does nothing (log 14). -/
def loopTurn (s : State) : StepResult :=
  if s.running then loopIter s else .next s

end Sys2Proof.Machine
end

