-- ==== Sys2Proof/Machine/Dispatch.lean ====
section
/-! DEFINITION. The one dispatch from an instruction to its meaning. -/

namespace Sys2Proof.Machine

def exec (i : Instr) (s : State) : Host.Outcome State Fault Refusal :=
  match i with
  | .nop => Sys2Proof.Machine.execNop s
  | .next => Sys2Proof.Machine.execNext s
  | .find idx => Sys2Proof.Machine.execFind idx s
  | .ext8u idx => Sys2Proof.Machine.execExt8u idx s
  | .ext16u idx => Sys2Proof.Machine.execExt16u idx s
  | .ext16s idx => Sys2Proof.Machine.execExt16s idx s
  | .ext32s idx => Sys2Proof.Machine.execExt32s idx s
  | .clear => Sys2Proof.Machine.execClear s
  | .snap => Sys2Proof.Machine.execSnap s

end Sys2Proof.Machine
end

