-- ==== Sys2Proof/Machine/HostBus.lean ====
section
/-! DEFINITION. The host's register accesses (10_state.md R23, R24, 20_memory.md R44, R47), the events of the three agents
and from outside (00_scope.md R12), and the host write that carries an instruction. -/

namespace Sys2Proof.Machine

/-- The window offset of a supported access of `bytes` bytes at the host address `addr`, or why it is none: outside the
window (20_memory.md R37, log 9), another width, or not a multiple of 4 (R44, U1, log 8). -/
def accessOffset (addr bytes : Nat) (s : State) : Except Fault Nat :=
  if addr < s.blockBase ∨ s.blockBase + Config.windowSize ≤ addr then .error .outsideWindow
  else if bytes ≠ 4 then .error .accessWidth
  else if addr % 4 ≠ 0 then .error .misaligned
  else .ok (addr - s.blockBase)

/-- A host read (20_memory.md R47): the register's value goes to the host and nothing else changes. -/
def hostRead (addr bytes : Nat) (s : State) : StepResult :=
  match accessOffset addr bytes s with
  | .error f => .fault f
  | .ok off => .next (s.setBusData (readOffset off s))

/-- A write of `value` at a window offset (20_memory.md R47): an instruction (a command word or `SNAP`), an illegal command
word, `CTRL`, `STATUS`, or an ignored write (10_state.md R24). -/
def writeOffset (off : Nat) (value : Word) (s : State) : StepResult :=
  match decode ⟨off, value⟩ with
  | .ok i => exec i s
  | .error _ =>
    match regAt off with
    | some .cmd => illegalWord s
    | some .ctrl => .next (s.writeCtrl value)
    | some .status => .next (s.clearErrors value)
    | _ => .next s

/-- A host write (00_scope.md R12). -/
def hostWrite (addr bytes : Nat) (value : Word) (s : State) : StepResult :=
  match accessOffset addr bytes s with
  | .error f => .fault f
  | .ok off => writeOffset off value s

/-- One event: a step of the Host, the Loop or the Env, a reset, or the loss of the transport. -/
def perform (e : Event) (s : State) : StepResult :=
  match e with
  | .hostRead addr bytes => hostRead addr bytes s
  | .hostWrite addr bytes value => hostWrite addr bytes value s
  | .loop => loopTurn s
  | .envAppend bytes => .next (s.appendRx bytes)
  | .transportGone => .next s.loseTransport
  | .reset => .next s.applyReset

/-- The host write that carries an opcode-table word: any word to `SNAP` for the row without bits, else to `CMD`
(log 16). -/
def tableEvent (nbits w : Nat) (s : State) : Event :=
  .hostWrite (s.blockBase + regOffset (if nbits = 0 then .snap else .cmd)) 4 (tableWord nbits w)

/-- The state in which a host write of the opcode-table word comes next. A command needs the loop stopped first
(70_reset_and_hazards.md R129 item 3, R130), so `RUN` and `RUNNING` are 0, as after the stop handshake (log 2). -/
def stageWord (s : State) (nbits w : Nat) : State :=
  { s with script := tableEvent nbits w s :: s.script, run := false, running := false }

end Sys2Proof.Machine
end

