-- ==== Sys2Proof/Machine/Step.lean ====
section
/-! DEFINITION. One step of the machine: the next event of the interleaving (20_memory.md R46, R49). -/

namespace Sys2Proof.Machine

/-- One step: the first pending event acts; with none pending the Host and the Env do nothing and it is the Loop's turn
(00_scope.md R12, U15, log 1). -/
def step (s : State) : Host.Outcome State Fault Refusal :=
  match s.script with
  | [] => loopTurn s
  | e :: rest => perform e (s.setScript rest)

/-- The opcode-table word `w` placed as the next host write, with the loop stopped (log 2). -/
def State.withFetchWord (s : State) (nbits w : Nat) : State := stageWord s nbits w

end Sys2Proof.Machine
end

