-- ==== Sys2Proof/Safety.lean ====
section
/-! DEFINITION. The words claims use: what a validated frame start, an incomplete candidate and a spurious marker are
(00_scope.md R11), and the invariants of every reachable state (10_state.md R22, 41_frame_buffer.md R74). -/

namespace Sys2Proof.Machine

/-- A marker stands at index `t` (00_scope.md R11). -/
def markerAt (p : Params) (S : List Byte) (t : Nat) : Bool := S[t]? == some p.marker

/-- A validated frame start: `S[t] = MARKER`, `t + L < n` and `S[t + L] = TERM` with `L = S[t + LEN_OFF]`
(00_scope.md R11). -/
def validStart (p : Params) (S : List Byte) (t : Nat) : Bool :=
  markerAt p S t &&
    match S[t + p.lenOff]? with
    | none => false
    | some len => S[t + len.toNat]? == some p.term

/-- A marker at `t` whose length byte or terminator byte is not there (40_synchronizer.md R64, R66, R67). -/
def incompleteAt (p : Params) (S : List Byte) (t : Nat) : Bool :=
  markerAt p S t &&
    match S[t + p.lenOff]? with
    | none => true
    | some len => decide (S.length ≤ t + len.toNat)

/-- A spurious marker: its terminator byte is there and is not `TERM` (00_scope.md R11). -/
def spuriousAt (p : Params) (S : List Byte) (t : Nat) : Bool :=
  markerAt p S t &&
    match S[t + p.lenOff]? with
    | none => false
    | some len => decide (t + len.toNat < S.length) && (S[t + len.toNat]? != some p.term)

/-- Every field ends within the first `MIN_FRAME` bytes of a frame, so that a frame that is decoded holds every field
(42_decoder.md R92). -/
abbrev FieldsFit (p : Params) : Prop := ∀ f, fieldOffset p f + formWidth (fieldForm f) ≤ p.minFrame

/-- No Loop step is enabled (10_state.md R22 INV5): the Loop's turn changes nothing (log 14). -/
def loopDisabled (s : State) : Prop := loopTurn s = .next s

/-- (INV1) of 10_state.md R22. -/
abbrev Inv1 (s : State) : Prop := s.sync = .empty → s.bufLen = 0 ∧ s.cur = 0 ∧ s.scanFrom = 0

/-- (INV2) of 10_state.md R22. -/
abbrev Inv2 (s : State) : Prop :=
  s.sync = .locked →
    s.scanFrom = 0 ∧ s.cur.toNat + s.params.lenOff < s.bufLen ∧ validStart s.params s.bytes s.cur.toNat = true

/-- (INV3) of 10_state.md R22. -/
abbrev Inv3 (s : State) : Prop := s.sync = .hunt → s.cur = 0 ∧ s.scanFrom.toNat ≤ s.bufLen

/-- (INV4) of 10_state.md R22. -/
abbrev Inv4 (s : State) : Prop := s.bufLen ≤ s.params.bufCap

/-- (INV5) of 10_state.md R22. -/
def Inv5 (s : State) : Prop := s.running = false → loopDisabled s

/-- The four state invariants INV1 to INV4 of 10_state.md R22. -/
abbrev SyncInv (s : State) : Prop := Inv1 s ∧ Inv2 s ∧ Inv3 s ∧ Inv4 s

/-- The buffer's cells stand in canonical form, none at or beyond `BUF_LEN` (log 6). -/
abbrev BufferWf (s : State) : Prop := Memory.wf s.buf = true ∧ ∀ c ∈ s.buf, c.1 < s.bufLen

/-- What 41_frame_buffer.md R74 says of HUNT: at most 255 bytes, or `LEN_OFF` if that is more, stand from `SCAN_FROM`
on. -/
abbrev HuntRetainsFew (s : State) : Prop :=
  s.sync = .hunt → s.bufLen - s.scanFrom.toNat ≤ max s.params.lenOff 255

end Sys2Proof.Machine
end

