-- ==== Sys2Proof/Certificates/Slice0/Obligations.lean ====
section
/-! DEFINITION. The statements about the machine. Each docstring names the rule of spec/ it rests on. Where a statement
writes a next state as an update of the state before, everything the update does not name is unchanged: every register,
every error bit, the environment, the parameters and every byte of the buffer. The named parameters of 00_scope.md R7
(`MARKER`, `TERM`, `LEN_OFF`, `SLACK`, `MIN_FRAME`, `BUF_CAP`, `CNT_W`, and by D30 the field offsets and scales) stand in
the statements as arguments, `p` or `s.params`: a statement holds for every value of them its premises allow, this
hardware's among them. -/

open Sys2Proof Sys2Proof.Machine

/-! ### Encodings -/

/-- Decoding an encoded well-formed instruction gives it back (30_encoding.md R57, R58, R62). -/
def Obligations.EncodingRoundTrips : Prop :=
  ∀ i : Instr, wellFormed i = true → decode (encode i) = .ok i

/-- A command word has one meaning: what it decodes to is well-formed and encodes to that word (30_encoding.md R57, R58). -/
def Obligations.CommandWordsHaveOneMeaning : Prop :=
  ∀ (w : Word) (i : Instr), decodeCmd w = .ok i → wellFormed i = true ∧ encode i = ⟨0x008, w⟩

/-- The opcode map (30_encoding.md R58): a word is the instruction of a row iff `w & mask = match`, and a word that matches
no row is illegal. -/
def Obligations.OpcodeRowsAreMaskAndMatch : Prop :=
  ∀ w : Word,
    (decodeCmd w = .ok .nop ↔ w &&& 0xFFFFFFFF = 0x00000000) ∧
    (decodeCmd w = .ok .next ↔ w &&& 0xFFFFFFFF = 0x00000001) ∧
    (∀ idx, decodeCmd w = .ok (.find idx) ↔ w &&& 0x0000FFFF = 0x00000002 ∧ idx = (w >>> 16).toNat) ∧
    (∀ idx, decodeCmd w = .ok (.ext8u idx) ↔ w &&& 0x0000FFFF = 0x00000003 ∧ idx = (w >>> 16).toNat) ∧
    (∀ idx, decodeCmd w = .ok (.ext16u idx) ↔ w &&& 0x0000FFFF = 0x00000004 ∧ idx = (w >>> 16).toNat) ∧
    (∀ idx, decodeCmd w = .ok (.ext16s idx) ↔ w &&& 0x0000FFFF = 0x00000005 ∧ idx = (w >>> 16).toNat) ∧
    (∀ idx, decodeCmd w = .ok (.ext32s idx) ↔ w &&& 0x0000FFFF = 0x00000006 ∧ idx = (w >>> 16).toNat) ∧
    (decodeCmd w = .ok .clear ↔ w &&& 0xFFFFFFFF = 0x00000007) ∧
    ((∃ r, decodeCmd w = .error r) ↔
      (w ≠ 0x00000000 ∧ w ≠ 0x00000001 ∧ w ≠ 0x00000007 ∧ w &&& 0x0000FFFF ≠ 2 ∧ w &&& 0x0000FFFF ≠ 3 ∧
        w &&& 0x0000FFFF ≠ 4 ∧ w &&& 0x0000FFFF ≠ 5 ∧ w &&& 0x0000FFFF ≠ 6))

/-- The illegal words (30_encoding.md R59) and what one does while the loop is stopped (60_exceptions.md R112): it raises
`ERR_ILLEGAL` and changes nothing else, `RESULT` included. -/
def Obligations.IllegalWordsRaiseErrIllegal : Prop :=
  ∀ w : Word,
    ((∃ r, decodeCmd w = .error r) ↔
      (8 ≤ (w.extractLsb' 0 4).toNat ∨ w.extractLsb' 4 12 ≠ 0 ∨
        ((w.extractLsb' 0 4 = 0 ∨ w.extractLsb' 0 4 = 1 ∨ w.extractLsb' 0 4 = 7) ∧ w.extractLsb' 16 16 ≠ 0))) ∧
    ∀ s : State, s.blockBase % 4 = 0 → s.running = false → (∃ r, decodeCmd w = .error r) →
      hostWrite (s.blockBase + 0x008) 4 w s = .next { s with errIllegal := true }

/-- Words of the programs of 95_test_vectors.md decode to the instructions they stand for there. -/
def Obligations.VectorWordsDecode : Prop :=
  decodeTableWord 32 0x00000000 = some .nop ∧ decodeTableWord 32 0x00000001 = some .next ∧
  decodeTableWord 32 0x00640002 = some (.find 100) ∧ decodeTableWord 32 0xFFFF0003 = some (.ext8u 65535) ∧
  decodeTableWord 32 0x000A0004 = some (.ext16u 10) ∧ decodeTableWord 32 0x00430005 = some (.ext16s 67) ∧
  decodeTableWord 32 0x004B0006 = some (.ext32s 75) ∧ decodeTableWord 32 0x00000007 = some .clear ∧
  decodeTableWord 32 0x00000009 = none ∧ decodeTableWord 32 0x00000010 = none ∧ decodeTableWord 32 0x00010007 = none

/-! ### The step and the instruction -/

/-- A step runs the decoded instruction: a pending host write that decodes to `i` makes the step `exec i` on the state
whose `script`, the model's list of pending steps (log 1), has lost that write (00_scope.md R12, 20_memory.md R46). -/
def Obligations.StepRunsTheDecodedInstruction : Prop :=
  ∀ (s : State) (h : HostWrite) (i : Instr) (rest : List Event),
    s.blockBase % 4 = 0 → s.script = .hostWrite (s.blockBase + h.offset) 4 h.value :: rest → decode h = .ok i →
    step s = exec i { s with script := rest }

/-- A word staged for the fetch runs as the very next step, with the loop stopped. The model's own staging (log 2). -/
def Obligations.StagedWordRunsNext : Prop :=
  ∀ (s : State) (nbits w : Nat) (i : Instr),
    s.blockBase % 4 = 0 → decodeTableWord nbits w = some i →
    step (s.withFetchWord nbits w) = exec i { s with run := false, running := false }

/-- The decoding procedure of 30_encoding.md R60: busy, then illegal, then the command of the word. -/
def Obligations.CommandWriteOrder : Prop :=
  ∀ (s : State) (w : Word), s.blockBase % 4 = 0 →
    (s.running = true → hostWrite (s.blockBase + 0x008) 4 w s = .next { s with errBusy := true }) ∧
    (s.running = false → ∀ r, decodeCmd w = .error r →
      hostWrite (s.blockBase + 0x008) 4 w s = .next { s with errIllegal := true }) ∧
    (s.running = false → ∀ i, decodeCmd w = .ok i → hostWrite (s.blockBase + 0x008) 4 w s = exec i s)

/-- `ERR_BUSY` (60_exceptions.md R111): a `CMD` write while `RUNNING = 1`, whatever the word, sets the bit and changes
nothing else. -/
def Obligations.BusyWriteChangesNothingElse : Prop :=
  ∀ (s : State) (w : Word), s.blockBase % 4 = 0 → s.running = true →
    hostWrite (s.blockBase + 0x008) 4 w s = .next { s with errBusy := true }

/-- One `CMD` write raises at most one error bit and clears none (60_exceptions.md R115, R116). -/
def Obligations.CommandRaisesAtMostOneError : Prop :=
  ∀ (s s' : State) (w : Word), hostWrite (s.blockBase + 0x008) 4 w s = .next s' →
    (s'.errBusy = s.errBusy ∧ s'.errIllegal = s.errIllegal ∧ s'.errBounds = s.errBounds ∧ s'.errShort = s.errShort) ∨
    (s'.errBusy = true ∧ s'.errIllegal = s.errIllegal ∧ s'.errBounds = s.errBounds ∧ s'.errShort = s.errShort) ∨
    (s'.errBusy = s.errBusy ∧ s'.errIllegal = true ∧ s'.errBounds = s.errBounds ∧ s'.errShort = s.errShort) ∨
    (s'.errBusy = s.errBusy ∧ s'.errIllegal = s.errIllegal ∧ s'.errBounds = true ∧ s'.errShort = s.errShort) ∨
    (s'.errBusy = s.errBusy ∧ s'.errIllegal = s.errIllegal ∧ s'.errBounds = s.errBounds ∧ s'.errShort = true)

/-! ### The extract commands -/

/-- `EXT8U` (42_decoder.md R88): its encoding, its refusal while the loop runs, its result in bounds, and the bounds
error. -/
def Obligations.Ext8uReadsAByte : Prop :=
  (∀ w : Word, w.extractLsb' 0 4 = 3 →
    (w.extractLsb' 4 12 = 0 → decodeCmd w = .ok (.ext8u (w.extractLsb' 16 16).toNat)) ∧
    (w.extractLsb' 4 12 ≠ 0 → ∃ r, decodeCmd w = .error r)) ∧
  ∀ (s : State) (idx : Nat),
    (s.running = true → exec (.ext8u idx) s = .next { s with errBusy := true }) ∧
    (s.running = false → idx + 1 ≤ s.bufLen →
      exec (.ext8u idx) s = .next { s with result := (Memory.read s.buf idx).setWidth 32 }) ∧
    (s.running = false → s.bufLen < idx + 1 →
      exec (.ext8u idx) s = .next { s with errBounds := true, result := 0 })

/-- `EXT16U` (42_decoder.md R89): little-endian, zero-extended. -/
def Obligations.Ext16uReadsLittleEndianUnsigned : Prop :=
  (∀ w : Word, w.extractLsb' 0 4 = 4 →
    (w.extractLsb' 4 12 = 0 → decodeCmd w = .ok (.ext16u (w.extractLsb' 16 16).toNat)) ∧
    (w.extractLsb' 4 12 ≠ 0 → ∃ r, decodeCmd w = .error r)) ∧
  ∀ (s : State) (idx : Nat),
    (s.running = true → exec (.ext16u idx) s = .next { s with errBusy := true }) ∧
    (s.running = false → idx + 2 ≤ s.bufLen →
      exec (.ext16u idx) s =
        .next { s with result := (Memory.read s.buf (idx + 1) ++ Memory.read s.buf idx).setWidth 32 }) ∧
    (s.running = false → s.bufLen < idx + 2 →
      exec (.ext16u idx) s = .next { s with errBounds := true, result := 0 })

/-- `EXT16S` (42_decoder.md R90): little-endian, sign-extended. -/
def Obligations.Ext16sReadsLittleEndianSigned : Prop :=
  (∀ w : Word, w.extractLsb' 0 4 = 5 →
    (w.extractLsb' 4 12 = 0 → decodeCmd w = .ok (.ext16s (w.extractLsb' 16 16).toNat)) ∧
    (w.extractLsb' 4 12 ≠ 0 → ∃ r, decodeCmd w = .error r)) ∧
  ∀ (s : State) (idx : Nat),
    (s.running = true → exec (.ext16s idx) s = .next { s with errBusy := true }) ∧
    (s.running = false → idx + 2 ≤ s.bufLen →
      exec (.ext16s idx) s =
        .next { s with result := (Memory.read s.buf (idx + 1) ++ Memory.read s.buf idx).signExtend 32 }) ∧
    (s.running = false → s.bufLen < idx + 2 →
      exec (.ext16s idx) s = .next { s with errBounds := true, result := 0 })

/-- `EXT32S` (42_decoder.md R91): the four bytes, little-endian, with no extension. -/
def Obligations.Ext32sReadsLittleEndianWord : Prop :=
  (∀ w : Word, w.extractLsb' 0 4 = 6 →
    (w.extractLsb' 4 12 = 0 → decodeCmd w = .ok (.ext32s (w.extractLsb' 16 16).toNat)) ∧
    (w.extractLsb' 4 12 ≠ 0 → ∃ r, decodeCmd w = .error r)) ∧
  ∀ (s : State) (idx : Nat),
    (s.running = true → exec (.ext32s idx) s = .next { s with errBusy := true }) ∧
    (s.running = false → idx + 4 ≤ s.bufLen →
      exec (.ext32s idx) s =
        .next { s with
          result := Memory.read s.buf (idx + 3) ++ Memory.read s.buf (idx + 2) ++ Memory.read s.buf (idx + 1) ++
            Memory.read s.buf idx }) ∧
    (s.running = false → s.bufLen < idx + 4 →
      exec (.ext32s idx) s = .next { s with errBounds := true, result := 0 })

/-- Narrower extractions inside a 32-bit or a 16-bit field see its bytes in little-endian order (20_memory.md R41). -/
def Obligations.NarrowExtractionsSeeTheWideField : Prop :=
  ∀ (s : State) (idx : Nat), s.running = false →
    (idx + 4 ≤ s.bufLen → ∃ v : Word,
      exec (.ext32s idx) s = .next { s with result := v } ∧
      (∀ j, j < 3 →
        exec (.ext16u (idx + j)) s = .next { s with result := (v.extractLsb' (8 * j) 16).setWidth 32 } ∧
        exec (.ext16s (idx + j)) s = .next { s with result := (v.extractLsb' (8 * j) 16).signExtend 32 }) ∧
      ∀ j, j < 4 → exec (.ext8u (idx + j)) s = .next { s with result := (v.extractLsb' (8 * j) 8).setWidth 32 }) ∧
    (idx + 2 ≤ s.bufLen → ∃ h : Half,
      exec (.ext16u idx) s = .next { s with result := h.setWidth 32 } ∧
      exec (.ext16s idx) s = .next { s with result := h.signExtend 32 } ∧
      ∀ j, j < 2 → exec (.ext8u (idx + j)) s = .next { s with result := (h.extractLsb' (8 * j) 8).setWidth 32 })

/-- The commands that only look at the buffer leave everything but `RESULT`, `ERR_BUSY` and `ERR_BOUNDS` as it was, and
every byte of the buffer too (40_synchronizer.md R72, 42_decoder.md R88 to R91, 41_frame_buffer.md R85). -/
def Obligations.InspectingCommandsFrame : Prop :=
  ∀ (i : Instr) (s s' : State),
    (i = .nop ∨ ∃ idx, i = .find idx ∨ i = .ext8u idx ∨ i = .ext16u idx ∨ i = .ext16s idx ∨ i = .ext32s idx) →
    exec i s = .next s' →
    s' = { s with result := s'.result, errBusy := s'.errBusy, errBounds := s'.errBounds } ∧
    ∀ a, Memory.read s'.buf a = Memory.read s.buf a

/-! ### The scan and FIND -/

/-- The definition of `Scan` (40_synchronizer.md R65): no marker at or after the start, or the least one, whose bytes are
missing, or which is a frame, or which is spurious and the scan goes on behind it. -/
def Obligations.ScanFollowsItsDefinition : Prop :=
  ∀ (p : Params) (S : List Byte) (start : Nat),
    ((∀ j, start ≤ j → S[j]? ≠ some p.marker) → scan p S start = (.none, 0)) ∧
    ∀ t, start ≤ t → S[t]? = some p.marker → (∀ j, start ≤ j → j < t → S[j]? ≠ some p.marker) →
      (S.length ≤ t + p.lenOff → scan p S start = (.incomplete t, 0)) ∧
      ∀ len, S[t + p.lenOff]? = some len →
        (S.length ≤ t + len.toNat → scan p S start = (.incomplete t, 0)) ∧
        ∀ e, S[t + len.toNat]? = some e →
          (e = p.term → scan p S start = (.found t, 0)) ∧
          (e ≠ p.term → scan p S start = ((scan p S (t + 1)).1, (scan p S (t + 1)).2 + 1))

/-- What an answer of `Scan` says of the bytes, and nothing else gives that answer (40_synchronizer.md R64, R71 (c)): the
result is at or behind the start, every marker before it was spurious, and the count is their number. -/
def Obligations.ScanAnswersAreExact : Prop :=
  ∀ (p : Params) (S : List Byte) (start t k : Nat),
    (scan p S start = (.found t, k) ↔
      start ≤ t ∧ validStart p S t = true ∧
        (∀ j, start ≤ j → j < t → markerAt p S j = true → spuriousAt p S j = true) ∧
        k = ((List.range t).filter (fun j => decide (start ≤ j) && markerAt p S j)).length) ∧
    (scan p S start = (.incomplete t, k) ↔
      start ≤ t ∧ incompleteAt p S t = true ∧
        (∀ j, start ≤ j → j < t → markerAt p S j = true → spuriousAt p S j = true) ∧
        k = ((List.range t).filter (fun j => decide (start ≤ j) && markerAt p S j)).length) ∧
    (scan p S start = (.none, k) ↔
      (∀ j, start ≤ j → markerAt p S j = true → spuriousAt p S j = true) ∧
        k = ((List.range S.length).filter (fun j => decide (start ≤ j) && markerAt p S j)).length)

/-- Small length bytes are not special (40_synchronizer.md R68): 0, and `LEN_OFF` itself, make a marker spurious, 1 with
the terminator behind the marker makes a frame. With this hardware's parameters `LEN_OFF` is 2, the length byte 2 is no
terminator, and the frame of length 1 is shorter than `MIN_FRAME`. -/
def Obligations.SmallLengthsAreNotSpecial : Prop :=
  (∀ (p : Params) (S : List Byte) (t : Nat), p.marker ≠ p.term → S[t]? = some p.marker →
    (S[t + p.lenOff]? = some 0 → scan p S t = ((scan p S (t + 1)).1, (scan p S (t + 1)).2 + 1)) ∧
    (∀ len : Byte, len.toNat = p.lenOff → len ≠ p.term → S[t + p.lenOff]? = some len →
      scan p S t = ((scan p S (t + 1)).1, (scan p S (t + 1)).2 + 1)) ∧
    (S[t + p.lenOff]? = some 1 → S[t + 1]? = some p.term → scan p S t = (.found t, 0))) ∧
  Config.hardware.marker ≠ Config.hardware.term ∧ (2 : Byte).toNat = Config.hardware.lenOff ∧
    (2 : Byte) ≠ Config.hardware.term ∧ 1 < Config.hardware.minFrame

/-- `FIND` (40_synchronizer.md R72): its encoding, its refusal while the loop runs, and its `RESULT` from the scan of the
valid bytes; nothing else changes, `SPURIOUS_CNT` included. -/
def Obligations.FindReportsTheScan : Prop :=
  (∀ w : Word, w.extractLsb' 0 4 = 2 →
    (w.extractLsb' 4 12 = 0 → decodeCmd w = .ok (.find (w.extractLsb' 16 16).toNat)) ∧
    (w.extractLsb' 4 12 ≠ 0 → ∃ r, decodeCmd w = .error r)) ∧
  ∀ (s : State) (idx : Nat),
    (s.running = true → exec (.find idx) s = .next { s with errBusy := true }) ∧
    (s.running = false → ∀ t k, scan s.params s.bytes idx = (.found t, k) →
      exec (.find idx) s =
        .next { s with
          result :=
            (BitVec.ofNat 32 t <<< 16) ||| ((Memory.read s.buf (t + s.params.lenOff)).setWidth 32 <<< 8) ||| 0 }) ∧
    (s.running = false → ∀ t k, scan s.params s.bytes idx = (.incomplete t, k) →
      exec (.find idx) s = .next { s with result := (BitVec.ofNat 32 t <<< 16) ||| 1 }) ∧
    (s.running = false → ∀ k, scan s.params s.bytes idx = (.none, k) →
      exec (.find idx) s = .next { s with result := 2 })

/-- The fields of `FIND`'s `RESULT` (30_encoding.md R61): `KIND`, `FLEN` and `POS` stand at their bits, all other bits are
0, and `KIND = 3` never occurs, whenever the buffer's length and capacity are legal (10_state.md R22 INV4, 00_scope.md R7,
R8). -/
def Obligations.FindResultFields : Prop :=
  ∀ (s s' : State) (idx : Nat), s.params.inRange → Inv4 s → s.running = false → exec (.find idx) s = .next s' →
    (∃ t k, scan s.params s.bytes idx = (.found t, k) ∧ s'.result.extractLsb' 0 8 = 0 ∧
      s'.result.extractLsb' 8 8 = Memory.read s.buf (t + s.params.lenOff) ∧
      (s'.result.extractLsb' 16 16).toNat = t) ∨
    (∃ t k, scan s.params s.bytes idx = (.incomplete t, k) ∧ s'.result.extractLsb' 0 16 = 1 ∧
      (s'.result.extractLsb' 16 16).toNat = t) ∨
    (∃ k, scan s.params s.bytes idx = (.none, k) ∧ s'.result = 2)

/-! ### The frame decoder -/

/-- `Decode(c)` (42_decoder.md R93), field by field, from the extraction primitives of R86, each field at its offset, a
parameter (D30); and this hardware's offsets, those of the rule. -/
def Obligations.DecodeReadsTheWireFormat : Prop :=
  (∀ (s : State) (c : Nat),
    let o := s.params.fieldOffsets
    let g8 := fun i => Memory.read s.buf i
    let g16 := fun i => g8 (i + 1) ++ g8 i
    let g32 := fun i => g8 (i + 3) ++ g8 (i + 2) ++ g8 (i + 1) ++ g8 i
    decodeFrame s c =
      { yaw := (g16 (c + o.yaw)).signExtend 32
        pitch := (g16 (c + o.pitch)).signExtend 32
        roll := (g16 (c + o.roll)).signExtend 32
        compass := (g16 (c + o.compass)).setWidth 32
        altitude := g32 (c + o.altitude)
        fused := (g16 (c + o.fused)).setWidth 32
        accX := (g16 (c + o.accX)).signExtend 32
        accY := (g16 (c + o.accY)).signExtend 32
        accZ := (g16 (c + o.accZ)).signExtend 32
        velX := g32 (c + o.velX)
        velY := g32 (c + o.velY)
        velZ := g32 (c + o.velZ)
        dispX := g32 (c + o.dispX)
        dispY := g32 (c + o.dispY)
        dispZ := g32 (c + o.dispZ)
        quatW := (g16 (c + o.quatW)).signExtend 32
        quatX := (g16 (c + o.quatX)).signExtend 32
        quatY := (g16 (c + o.quatY)).signExtend 32
        quatZ := (g16 (c + o.quatZ)).signExtend 32
        temp := (g16 (c + o.temp)).signExtend 32
        stOp := (g8 (c + o.stOp)).setWidth 32
        stSensor := (g8 (c + o.stSensor)).setWidth 32
        stCal := (g8 (c + o.stCal)).setWidth 32
        stSelftest := (g8 (c + o.stSelftest)).setWidth 32 }) ∧
  Config.hardware.fieldOffsets =
    { yaw := 4, pitch := 6, roll := 8, compass := 10, altitude := 12, fused := 16, accX := 18, accY := 20,
      accZ := 22, velX := 24, velY := 28, velZ := 32, dispX := 36, dispY := 40, dispZ := 44, quatW := 48,
      quatX := 50, quatY := 52, quatZ := 54, temp := 56, stOp := 58, stSensor := 59, stCal := 60, stSelftest := 61 }

/-- The round trip of 42_decoder.md R99: a frame whose field bytes are the little-endian encoding of a raw value of the
field's range decodes to that value. -/
def Obligations.FieldsRoundTrip : Prop :=
  ∀ (s : State) (c : Nat) (f : Field) (raw : Word),
    (match fieldForm f with
      | .signed16 => -32768 ≤ raw.toInt ∧ raw.toInt ≤ 32767
      | .unsigned16 => raw.toNat ≤ 65535
      | .q16 => True
      | .byte => raw.toNat ≤ 255) →
    (∀ k, k < formWidth (fieldForm f) →
      Memory.read s.buf (c + fieldOffset s.params f + k) = (raw >>> (8 * k)).setWidth 8) →
    (decodeFrame s c).get f = raw

/-- The raw ranges of 42_decoder.md R98, by the kind of the field. -/
def Obligations.FieldRangesHold : Prop :=
  ∀ (s : State) (c : Nat) (f : Field),
    let v := fieldInt f ((decodeFrame s c).get f)
    match fieldForm f with
    | .signed16 => -32768 ≤ v ∧ v ≤ 32767
    | .unsigned16 => 0 ≤ v ∧ v ≤ 65535
    | .q16 => -2147483648 ≤ v ∧ v ≤ 2147483647
    | .byte => 0 ≤ v ∧ v ≤ 255

/-- The source's two worked values (42_decoder.md R96): yaw bytes D2 04 stand for 1234 over the scale of the yaw, altitude
bytes 00 00 FF FF for -65536 over that of the altitude; with this hardware's offsets and scales, bytes D2 04 at frame
offset 4 for 1234/100, and 00 00 FF FF at offset 12 for -1. -/
def Obligations.WorkedFieldValues : Prop :=
  ∀ (s : State) (c : Nat),
    let o := s.params.fieldOffsets
    let at4 := fun (i : Nat) (b0 b1 b2 b3 : Byte) =>
      Memory.read s.buf i = b0 ∧ Memory.read s.buf (i + 1) = b1 ∧ Memory.read s.buf (i + 2) = b2 ∧
        Memory.read s.buf (i + 3) = b3
    (Memory.read s.buf (c + o.yaw) = 0xD2 → Memory.read s.buf (c + o.yaw + 1) = 0x04 →
      fieldScaled s.params .yaw (decodeFrame s c).yaw = 1234 / (s.params.fieldScales.yaw : ℚ)) ∧
    (at4 (c + o.altitude) 0x00 0x00 0xFF 0xFF →
      fieldScaled s.params .altitude (decodeFrame s c).altitude = -65536 / (s.params.fieldScales.altitude : ℚ)) ∧
    (s.params = Config.hardware → Memory.read s.buf (c + 4) = 0xD2 → Memory.read s.buf (c + 5) = 0x04 →
      fieldScaled s.params .yaw (decodeFrame s c).yaw = 1234 / 100) ∧
    (s.params = Config.hardware → at4 (c + 12) 0x00 0x00 0xFF 0xFF →
      fieldScaled s.params .altitude (decodeFrame s c).altitude = -1)

/-- `Decode` reads the bytes of its fields and no others (42_decoder.md R92): with this hardware's offsets the bytes at the
frame offsets 4 to 61, so neither 1 nor 3 (30_encoding.md R55, R56). -/
def Obligations.DecodeReadsOnlyItsFields : Prop :=
  (∀ (s t : State) (c d : Nat), s.params.fieldOffsets = t.params.fieldOffsets →
    (∀ f j, j < formWidth (fieldForm f) →
      Memory.read s.buf (c + (fieldOffset s.params f + j)) = Memory.read t.buf (d + (fieldOffset s.params f + j))) →
    decodeFrame s c = decodeFrame t d) ∧
  ∀ k, (∃ f j, j < formWidth (fieldForm f) ∧ fieldOffset Config.hardware f + j = k) ↔ 4 ≤ k ∧ k ≤ 61

/-! ### NEXT -/

/-- `NEXT` on a LOCKED frame that is far enough from the tail and long enough (41_frame_buffer.md R79, R80): it publishes
the frame's sample and advances past its terminator. -/
def Obligations.NextPublishesTheFrame : Prop :=
  ∀ (s : State) (len : Byte),
    s.running = false → s.sync = .locked → Memory.read s.buf (s.cur.toNat + s.params.lenOff) = len →
    s.cur.toNat + len.toNat + s.params.slack ≤ s.bufLen → s.params.minFrame ≤ len.toNat →
    let plus := fun (c : Word) (n : Nat) => BitVec.ofNat 32 ((c.toNat + n) % 2 ^ s.params.cntW)
    let r := scan s.params s.bytes (s.cur.toNat + len.toNat + 1)
    let s' := { s with
      pub := decodeFrame s s.cur.toNat, pubValid := true, frameCnt := plus s.frameCnt 1
      spuriousCnt := plus s.spuriousCnt r.2, result := len.setWidth 32 <<< 8 }
    (∀ t, r.1 = .found t → exec .next s = .next { s' with cur := BitVec.ofNat 16 t }) ∧
    (∀ t, r.1 = .incomplete t →
      exec .next s = .next { s' with sync := .hunt, cur := 0, scanFrom := BitVec.ofNat 16 t }) ∧
    (r.1 = .none → exec .next s = .next { s' with sync := .hunt, cur := 0, scanFrom := BitVec.ofNat 16 s.bufLen })

/-- `NEXT` on a validated frame with `L < MIN_FRAME` (60_exceptions.md R114): `ERR_SHORT`, one more in `SHORT_CNT`, no
publish, the cursor past the frame, `RESULT = (L << 8) | 3`. -/
def Obligations.NextSkipsAShortFrame : Prop :=
  ∀ (s : State) (len : Byte),
    s.running = false → s.sync = .locked → Memory.read s.buf (s.cur.toNat + s.params.lenOff) = len →
    s.cur.toNat + len.toNat + s.params.slack ≤ s.bufLen → len.toNat < s.params.minFrame →
    let plus := fun (c : Word) (n : Nat) => BitVec.ofNat 32 ((c.toNat + n) % 2 ^ s.params.cntW)
    let r := scan s.params s.bytes (s.cur.toNat + len.toNat + 1)
    let s' := { s with
      errShort := true, shortCnt := plus s.shortCnt 1
      spuriousCnt := plus s.spuriousCnt r.2, result := (len.setWidth 32 <<< 8) ||| 3 }
    (∀ t, r.1 = .found t → exec .next s = .next { s' with cur := BitVec.ofNat 16 t }) ∧
    (∀ t, r.1 = .incomplete t →
      exec .next s = .next { s' with sync := .hunt, cur := 0, scanFrom := BitVec.ofNat 16 t }) ∧
    (r.1 = .none → exec .next s = .next { s' with sync := .hunt, cur := 0, scanFrom := BitVec.ofNat 16 s.bufLen })

/-- `NO_DATA` changes nothing but `RESULT`, and issues no `Read` (41_frame_buffer.md R81). -/
def Obligations.NoDataChangesNothing : Prop :=
  (∀ (s : State) (o : FrameOutcome), nextCore s = .ok o → o.code = .noData → o.state = s) ∧
  ∀ s : State, s.running = false → s.transportUp = true → s.rxq.length < s.params.slack → s.sync ≠ .locked →
    exec .next s = .next { s with result := 1 }

/-- The tail stall (41_frame_buffer.md R83): a LOCKED frame within `SLACK` of the tail is held while fewer than `SLACK`
bytes are available; `NEXT` and a Loop step both answer `NO_DATA`. -/
def Obligations.TailStallHoldsTheFrame : Prop :=
  ∀ s : State, s.sync = .locked → s.transportUp = true → s.rxq.length < s.params.slack →
    s.bufLen < s.cur.toNat + (Memory.read s.buf (s.cur.toNat + s.params.lenOff)).toNat + s.params.slack →
    nextCore s = .ok ⟨.noData, 0, s⟩ ∧
    (s.running = false → exec .next s = .next { s with result := 1 }) ∧
    (s.running = true → s.run = true → loopTurn s = .next s)

/-- `NEXT` in EMPTY whose read holds no validated frame (41_frame_buffer.md R73, R79, R80): the bytes are consumed and
dropped, the spurious markers counted, the outcome `NO_FRAME`. The draw of the `Read` is the first of `draws` held to
`min(n, |RXQ|)` (20_memory.md R38, log 3). -/
def Obligations.NextDropsNoiseInEmpty : Prop :=
  ∀ (s : State) (d : Nat) (ds : List Nat),
    s.running = false → s.sync = .empty → s.transportUp = true → s.params.slack ≤ s.rxq.length → s.draws = d :: ds →
    let plus := fun (c : Word) (n : Nat) => BitVec.ofNat 32 ((c.toNat + n) % 2 ^ s.params.cntW)
    let k := min d (min (min s.rxq.length s.params.bufCap) s.rxq.length)
    let r := scan s.params (s.rxq.take k) 0
    (∀ t, r.1 ≠ .found t) →
    ∃ s', exec .next s = .next s' ∧ s'.bufLen = 0 ∧ s'.bytes = [] ∧
      s' = { s with
        buf := s'.buf, bufLen := 0, spuriousCnt := plus s.spuriousCnt r.2
        rxq := s.rxq.drop k, draws := ds, result := 2 }

/-- `Ingest` (41_frame_buffer.md R73): how much is asked for and read, and what the buffer, the position and the spurious
count become in each `SYNC` state; nothing else changes but the queue and the draw. -/
def Obligations.IngestFollowsItsRule : Prop :=
  ∀ (s : State) (a : Nat),
    let plus := fun (c : Word) (n : Nat) => BitVec.ofNat 32 ((c.toNat + n) % 2 ^ s.params.cntW)
    let keep := match s.sync with
      | .empty => 0
      | .locked => s.bufLen - s.cur.toNat
      | .hunt => s.bufLen - s.scanFrom.toNat
    let n := min a (s.params.bufCap - keep)
    let k := readCount n s
    let N := s.rxq.take k
    let t := ingest a s
    k ≤ n ∧ k ≤ s.rxq.length ∧ t.rxq = s.rxq.drop k ∧
    (match s.sync with
      | .empty =>
        t.spuriousCnt = plus s.spuriousCnt (scan s.params N 0).2 ∧ t.scanFrom = s.scanFrom ∧
        (match (scan s.params N 0).1 with
          | .found p => t.bytes = N.drop p ∧ t.sync = .locked ∧ t.cur = 0
          | _ => t.bytes = [] ∧ t.sync = .empty ∧ t.cur = s.cur)
      | .locked =>
        t.bytes = s.bytes.drop s.cur.toNat ++ N ∧ t.sync = .locked ∧ t.cur = 0 ∧ t.scanFrom = s.scanFrom ∧
        t.spuriousCnt = s.spuriousCnt
      | .hunt =>
        let B := s.bytes.drop s.scanFrom.toNat ++ N
        t.spuriousCnt = plus s.spuriousCnt (scan s.params B 0).2 ∧ t.scanFrom = 0 ∧
        (match (scan s.params B 0).1 with
          | .found p => t.bytes = B.drop p ∧ t.sync = .locked ∧ t.cur = 0
          | .incomplete p => t.bytes = B.drop p ∧ t.sync = .hunt ∧ t.cur = s.cur
          | .none => t.bytes = [] ∧ t.sync = .hunt ∧ t.cur = s.cur)) ∧
    t = { s with
      buf := t.buf, bufLen := t.bufLen, sync := t.sync, cur := t.cur, scanFrom := t.scanFrom
      spuriousCnt := t.spuriousCnt, rxq := t.rxq, draws := t.draws, drawCount := t.drawCount }

/-- `NextCore` (41_frame_buffer.md R79) with `Ingest` as the model's operation of R73, and `NEXT` on top of it (R80): its
encoding, its refusal while the loop runs, which of `NO_DATA`, `NO_FRAME`, `SAMPLE` and `SHORT` comes when, what the frame
and the advance behind it leave, and `RESULT`. -/
def Obligations.NextCoreFollowsItsRule : Prop :=
  (∀ w : Word, w.extractLsb' 0 4 = 1 →
    (w.extractLsb' 4 28 = 0 → decodeCmd w = .ok .next) ∧ (w.extractLsb' 4 28 ≠ 0 → ∃ r, decodeCmd w = .error r)) ∧
  (∀ s : State, s.running = true → exec .next s = .next { s with errBusy := true }) ∧
  ∀ s : State, s.transportUp = true →
    let plus := fun (c : Word) (n : Nat) => BitVec.ofNat 32 ((c.toNat + n) % 2 ^ s.params.cntW)
    let close := s.bufLen < s.cur.toNat + (Memory.read s.buf (s.cur.toNat + s.params.lenOff)).toNat + s.params.slack
    let t := ingest s.rxq.length s
    let frame := fun (u : State) (o : FrameOutcome) =>
      let len := Memory.read u.buf (u.cur.toNat + u.params.lenOff)
      let r := scan u.params u.bytes (u.cur.toNat + len.toNat + 1)
      let u' := { u with spuriousCnt := plus u.spuriousCnt r.2 }
      let v :=
        match r.1 with
        | .found p => { u' with cur := BitVec.ofNat 16 p }
        | .incomplete p => { u' with sync := .hunt, cur := 0, scanFrom := BitVec.ofNat 16 p }
        | .none => { u' with sync := .hunt, cur := 0, scanFrom := BitVec.ofNat 16 u.bufLen }
      (s.params.minFrame ≤ len.toNat → o = ⟨.sample, len,
        { v with pub := decodeFrame u u.cur.toNat, pubValid := true, frameCnt := plus u.frameCnt 1 }⟩) ∧
      (len.toNat < s.params.minFrame → o = ⟨.short, len,
        { v with errShort := true, shortCnt := plus u.shortCnt 1 }⟩)
    ∃ o, nextCore s = .ok o ∧
      (s.sync ≠ .locked → s.rxq.length < s.params.slack → o = ⟨.noData, 0, s⟩) ∧
      (s.sync ≠ .locked → s.params.slack ≤ s.rxq.length → t.sync ≠ .locked → o = ⟨.noFrame, 0, t⟩) ∧
      (s.sync ≠ .locked → s.params.slack ≤ s.rxq.length → t.sync = .locked → frame t o) ∧
      (s.sync = .locked → ¬ close → frame s o) ∧
      (s.sync = .locked → close → s.rxq.length < s.params.slack → o = ⟨.noData, 0, s⟩) ∧
      (s.sync = .locked → close → s.params.slack ≤ s.rxq.length → t.sync = .locked ∧ t.cur = 0 ∧ frame t o) ∧
      (s.running = false → exec .next s =
        .next { o.state with
          result := (o.len.setWidth 32 <<< 8) |||
            (match o.code with | .sample => 0 | .noData => 1 | .noFrame => 2 | .short => 3) })

/-- What `NEXT` leaves alone (41_frame_buffer.md R80): the snapshot, the run state, the other error bits and the interface;
every byte of the buffer where it issues no `Read`; and on a LOCKED ingest every byte from `CUR` on, moved down by `CUR`. -/
def Obligations.NextFrame : Prop :=
  ∀ s s' : State, exec .next s = .next s' →
    (s'.view = s.view ∧ s'.viewValid = s.viewValid ∧ s'.viewSeqn = s.viewSeqn ∧ s'.run = s.run ∧
      s'.running = s.running ∧ s'.errIllegal = s.errIllegal ∧ s'.errBounds = s.errBounds ∧
      s'.transportUp = s.transportUp ∧ s'.script = s.script ∧ s'.busData = s.busData ∧ s'.blockBase = s.blockBase ∧
      s'.params = s.params) ∧
    (s.running = true ∨ s.rxq.length < s.params.slack ∨
        (s.sync = .locked ∧
          s.cur.toNat + (Memory.read s.buf (s.cur.toNat + s.params.lenOff)).toNat + s.params.slack ≤ s.bufLen) →
      s'.rxq = s.rxq ∧ s'.bufLen = s.bufLen ∧ ∀ a, Memory.read s'.buf a = Memory.read s.buf a) ∧
    (s.running = false → s.params.slack ≤ s.rxq.length → s.sync = .locked →
      s.bufLen < s.cur.toNat + (Memory.read s.buf (s.cur.toNat + s.params.lenOff)).toNat + s.params.slack →
      ∀ a, a < s.bufLen - s.cur.toNat → Memory.read s'.buf a = Memory.read s.buf (s.cur.toNat + a))

/-- The fields of `NEXT`'s `RESULT` (30_encoding.md R61, U7): `CODE` is 0 to 3, `FLEN` is 0 for `NO_DATA` and `NO_FRAME`,
all other bits are 0. -/
def Obligations.NextResultFields : Prop :=
  ∀ s s' : State, s.running = false → exec .next s = .next s' →
    (s'.result.extractLsb' 0 3).toNat ≤ 3 ∧ s'.result.extractLsb' 3 5 = 0 ∧ s'.result.extractLsb' 16 16 = 0 ∧
    (s'.result.extractLsb' 0 3 = 1 ∨ s'.result.extractLsb' 0 3 = 2 → s'.result.extractLsb' 8 8 = 0)

/-- Back-to-back frames are returned in order (41_frame_buffer.md R82): where each of two calls passes the slack check or
finds `SLACK` bytes available (the Env may even return fewer than requested), the first publishes the frame at `CUR` and
the second the frame right behind it, and then the cursor is past that frame's terminator, or `SYNC` is HUNT. A call that
ingests renumbers its frame to index 0. Where the second call does neither, it answers `NO_DATA`. A
frame that is decoded holds every field (42_decoder.md R92). -/
def Obligations.BackToBackFramesInOrder : Prop :=
  ∀ (s : State) (len1 len2 : Byte),
    s.params.inRange → FieldsFit s.params →
    SyncInv s → s.sync = .locked → Memory.read s.buf (s.cur.toNat + s.params.lenOff) = len1 →
    s.params.minFrame ≤ len1.toNat →
    let c2 := s.cur.toNat + len1.toNat + 1
    validStart s.params s.bytes c2 = true → Memory.read s.buf (c2 + s.params.lenOff) = len2 →
    s.params.minFrame ≤ len2.toNat →
    let passes := fun t : State =>
      t.cur.toNat + (Memory.read t.buf (t.cur.toNat + t.params.lenOff)).toNat + s.params.slack ≤ t.bufLen
    let supplied := fun t : State => t.transportUp = true ∧ s.params.slack ≤ t.rxq.length
    passes s ∨ supplied s →
    ∃ o1, nextCore s = .ok o1 ∧ o1.code = .sample ∧ o1.len = len1 ∧ o1.state.pub = decodeFrame s s.cur.toNat ∧
      (passes o1.state ∨ supplied o1.state →
        ∃ o2, nextCore o1.state = .ok o2 ∧ o2.code = .sample ∧ o2.len = len2 ∧ o2.state.pub = decodeFrame s c2 ∧
          (o2.state.sync = .hunt ∨
            (o2.state.sync = .locked ∧
              (passes o1.state → o1.state.cur.toNat + len2.toNat < o2.state.cur.toNat) ∧
              (¬ passes o1.state → len2.toNat < o2.state.cur.toNat)))) ∧
      (¬ passes o1.state → o1.state.transportUp = true → o1.state.rxq.length < s.params.slack →
        nextCore o1.state = .ok ⟨.noData, 0, o1.state⟩)

/-! ### CLEAR, NOP, SNAP -/

/-- `CLEAR` (41_frame_buffer.md R84). -/
def Obligations.ClearEmptiesTheBuffer : Prop :=
  (∀ w : Word, w.extractLsb' 0 4 = 7 →
    (w.extractLsb' 4 28 = 0 → decodeCmd w = .ok .clear) ∧ (w.extractLsb' 4 28 ≠ 0 → ∃ r, decodeCmd w = .error r)) ∧
  ∀ s : State,
    (s.running = true → exec .clear s = .next { s with errBusy := true }) ∧
    (s.running = false → ∃ s', exec .clear s = .next s' ∧ s'.bytes = [] ∧
      s' = { s with buf := s'.buf, bufLen := 0, sync := .empty, cur := 0, scanFrom := 0, result := 0 })

/-- `NOP` (41_frame_buffer.md R85). -/
def Obligations.NopChangesNothing : Prop :=
  (∀ w : Word, w.extractLsb' 0 4 = 0 →
    (w.extractLsb' 4 28 = 0 → decodeCmd w = .ok .nop) ∧ (w.extractLsb' 4 28 ≠ 0 → ∃ r, decodeCmd w = .error r)) ∧
  ∀ s : State,
    (s.running = true → exec .nop s = .next { s with errBusy := true }) ∧
    (s.running = false → exec .nop s = .next s)

/-- `SNAP` (43_poller.md R101, 10_state.md R33): any value written, the loop running or not; a read of it returns 0. -/
def Obligations.SnapCopiesThePublishedSample : Prop :=
  ∀ s : State,
    exec .snap s =
      .next { s with view := s.pub, viewValid := s.pubValid, viewSeqn := BitVec.ofNat 31 (s.frameCnt.toNat % 2 ^ 31) } ∧
    (s.blockBase % 4 = 0 →
      (∀ v : Word, hostWrite (s.blockBase + 0x02C) 4 v s = exec .snap s) ∧
      hostRead (s.blockBase + 0x02C) 4 s = .next { s with busData := 0 })

/-! ### The Loop -/

/-- A Loop step (43_poller.md R104, 10_state.md R22 INV5): nothing while stopped; the exit when `RUN = 0`; else `NextCore`
with `RESULT` not written. That a stopped Loop's turn changes nothing is the model's reading of a step that is not enabled
(log 14). -/
def Obligations.LoopStepFollowsItsRule : Prop :=
  ∀ s : State,
    (s.running = false → loopTurn s = .next s) ∧
    (s.running = true → s.transportUp = true → s.run = false → loopTurn s = .next { s with running := false }) ∧
    (s.running = true → s.transportUp = true → s.run = true → ∃ o, nextCore s = .ok o ∧ loopTurn s = .next o.state) ∧
    (∀ s', loopTurn s = .next s' →
      s'.result = s.result ∧ s'.errBusy = s.errBusy ∧ s'.errIllegal = s.errIllegal ∧ s'.errBounds = s.errBounds)

/-- A host write to `CTRL` (43_poller.md R103). -/
def Obligations.CtrlWriteStartsAndStops : Prop :=
  ∀ (s : State) (v : Word), s.blockBase % 4 = 0 →
    (v.getLsbD 0 = false → hostWrite s.blockBase 4 v s = .next { s with run := false }) ∧
    (v.getLsbD 0 = true → hostWrite s.blockBase 4 v s = .next { s with run := true, running := true })

/-! ### The host registers -/

/-- `STATUS` (10_state.md R26): what each bit reads as, and a write clears exactly the W1C bits written 1. -/
def Obligations.StatusReadsAndClears : Prop :=
  ∀ s : State, s.blockBase % 4 = 0 →
    (∃ v : Word, hostRead (s.blockBase + 0x004) 4 s = .next { s with busData := v } ∧
      v.getLsbD 0 = s.running ∧ v.getLsbD 1 = s.pubValid ∧
      v.extractLsb' 2 2 = (match s.sync with | .empty => 0 | .locked => 1 | .hunt => 2) ∧
      v.getLsbD 4 = s.errBusy ∧ v.getLsbD 5 = s.errIllegal ∧ v.getLsbD 6 = s.errBounds ∧ v.getLsbD 7 = s.errShort ∧
      v.extractLsb' 8 24 = 0) ∧
    ∀ v : Word, hostWrite (s.blockBase + 0x004) 4 v s =
      .next { s with
        errBusy := if v.getLsbD 4 then false else s.errBusy
        errIllegal := if v.getLsbD 5 then false else s.errIllegal
        errBounds := if v.getLsbD 6 then false else s.errBounds
        errShort := if v.getLsbD 7 then false else s.errShort }

/-- What a read of the other state registers returns (10_state.md R25, R27 to R32, R34), and nothing else changes. The
model keeps the returned value in `busData` (log 7). -/
def Obligations.RegistersReadTheirState : Prop :=
  ∀ s : State, s.blockBase % 4 = 0 →
    hostRead s.blockBase 4 s = .next { s with busData := (0 : BitVec 31) ++ BitVec.ofBool s.run } ∧
    hostRead (s.blockBase + 0x008) 4 s = .next { s with busData := 0 } ∧
    hostRead (s.blockBase + 0x00C) 4 s = .next { s with busData := s.result } ∧
    hostRead (s.blockBase + 0x010) 4 s =
      .next { s with busData := BitVec.ofBool (decide (s.sync = .locked)) ++ (0 : BitVec 15) ++ s.cur } ∧
    (s.params.inRange → Inv4 s →
      hostRead (s.blockBase + 0x014) 4 s = .next { s with busData := BitVec.ofNat 32 s.bufLen }) ∧
    hostRead (s.blockBase + 0x018) 4 s = .next { s with busData := (0 : BitVec 16) ++ s.scanFrom } ∧
    hostRead (s.blockBase + 0x01C) 4 s = .next { s with busData := s.frameCnt } ∧
    hostRead (s.blockBase + 0x020) 4 s = .next { s with busData := s.spuriousCnt } ∧
    hostRead (s.blockBase + 0x024) 4 s = .next { s with busData := s.shortCnt } ∧
    hostRead (s.blockBase + 0x028) 4 s = .next { s with busData := BitVec.ofNat 32 s.params.bufCap } ∧
    hostRead (s.blockBase + 0x030) 4 s = .next { s with busData := BitVec.ofBool s.viewValid ++ s.viewSeqn }

/-- The 24 `VIEW_*` registers (10_state.md R35): the word at 0x040 + 4k reads field k of the snapshot, in the frame's field
order. -/
def Obligations.ViewRegistersReadTheSnapshot : Prop :=
  ∀ (s : State) (k : Nat) (f : Field), s.blockBase % 4 = 0 →
    [Field.yaw, .pitch, .roll, .compass, .altitude, .fused, .accX, .accY, .accZ, .velX, .velY, .velZ,
      .dispX, .dispY, .dispZ, .quatW, .quatX, .quatY, .quatZ, .temp, .stOp, .stSensor, .stCal, .stSelftest][k]? =
        some f →
    hostRead (s.blockBase + (0x040 + 4 * k)) 4 s = .next { s with busData := s.view.get f }

/-- Writes to read-only registers and reserved offsets are ignored, and reserved offsets read 0 (10_state.md R24). -/
def Obligations.ReservedOffsetsAndReadOnlyRegisters : Prop :=
  ∀ (s : State) (off : Nat), s.blockBase % 4 = 0 → off < 4096 → off % 4 = 0 →
    (off ≠ 0x000 → off ≠ 0x004 → off ≠ 0x008 → off ≠ 0x02C →
      ∀ v : Word, hostWrite (s.blockBase + off) 4 v s = .next s) ∧
    ((0x034 ≤ off ∧ off < 0x040) ∨ 0x0A0 ≤ off → hostRead (s.blockBase + off) 4 s = .next { s with busData := 0 })

/-- Host reads change nothing but the value the host receives, and read it again the same (20_memory.md R47). -/
def Obligations.HostReadsHaveNoSideEffect : Prop :=
  ∀ (s s' : State) (addr bytes : Nat), hostRead addr bytes s = .next s' →
    s' = { s with busData := s'.busData } ∧ hostRead addr bytes s' = .next s'

/-- A host access of another width, or at an address that is no multiple of 4, is a fault of the host step (20_memory.md
R44, U1). The address is one of the window; one outside it is a fault of its own (the model's choice, log 9). The order of
the two checks is the model's choice (log 8). -/
def Obligations.UnsupportedHostAccessesFault : Prop :=
  ∀ (s : State) (addr bytes : Nat) (v : Word), s.blockBase ≤ addr → addr < s.blockBase + 4096 →
    (bytes ≠ 4 → hostRead addr bytes s = .fault .accessWidth ∧ hostWrite addr bytes v s = .fault .accessWidth) ∧
    (bytes = 4 → addr % 4 ≠ 0 → hostRead addr bytes s = .fault .misaligned ∧ hostWrite addr bytes v s = .fault .misaligned)

/-! ### Reset -/

/-- Reset (70_reset_and_hazards.md R126) in every state: each piece of FSYNC state at its value, `RXQ` unchanged. -/
def Obligations.ResetPutsEveryRegisterAtItsValue : Prop :=
  ∀ s : State, ∃ t, perform .reset s = .next t ∧
    t.bufLen = 0 ∧ t.bytes = [] ∧ t.sync = .empty ∧ t.cur = 0 ∧ t.scanFrom = 0 ∧
    (∀ f, t.pub.get f = 0) ∧ t.pubValid = false ∧ (∀ f, t.view.get f = 0) ∧ t.viewValid = false ∧ t.viewSeqn = 0 ∧
    t.frameCnt = 0 ∧ t.spuriousCnt = 0 ∧ t.shortCnt = 0 ∧ t.result = 0 ∧
    t.errBusy = false ∧ t.errIllegal = false ∧ t.errBounds = false ∧ t.errShort = false ∧
    t.run = true ∧ t.running = true ∧ t.rxq = s.rxq

/-- The register values straight after reset (70_reset_and_hazards.md R127). -/
def Obligations.RegistersAfterReset : Prop :=
  readOffset 0x000 State.reset = 0x00000001 ∧ readOffset 0x004 State.reset = 0x00000001 ∧
  readOffset 0x028 State.reset = 4096 ∧
  ∀ off, off ≠ 0x000 → off ≠ 0x004 → off ≠ 0x028 → readOffset off State.reset = 0

/-! ### Invariants and whole-machine rules -/

/-- The invariants hold at reset (10_state.md R22, 41_frame_buffer.md R74), and the parameters have this hardware's values,
`BUF_CAP` in its range (00_scope.md R7) and the field offsets and scales of 30_encoding.md R54 (D30), with which every
field lies within `MIN_FRAME` bytes. The buffer's form, the place of the window and that the parameters are a field of
State are the model's choices (logs 6, 5 and 18). -/
def Obligations.InvariantsHoldAtReset : Prop :=
  SyncInv State.reset ∧ HuntRetainsFew State.reset ∧ BufferWf State.reset ∧ State.reset.blockBase % 4 = 0 ∧
  State.reset.params =
    { marker := 0x21, term := 0x0D, lenOff := 2, slack := 256, minFrame := 62, pollIdleMs := 100, bufCap := 4096,
      cntW := 32,
      fieldOffsets :=
        { yaw := 4, pitch := 6, roll := 8, compass := 10, altitude := 12, fused := 16, accX := 18, accY := 20,
          accZ := 22, velX := 24, velY := 28, velZ := 32, dispX := 36, dispY := 40, dispZ := 44, quatW := 48,
          quatX := 50, quatY := 52, quatZ := 54, temp := 56, stOp := 58, stSensor := 59, stCal := 60, stSelftest := 61 },
      fieldScales :=
        { yaw := 100, pitch := 100, roll := 100, compass := 100, altitude := 65536, fused := 100,
          accX := 1000, accY := 1000, accZ := 1000, velX := 65536, velY := 65536, velZ := 65536,
          dispX := 65536, dispY := 65536, dispZ := 65536, quatW := 1, quatX := 1, quatY := 1,
          quatZ := 1, temp := 100, stOp := 1, stSensor := 1, stCal := 1, stSelftest := 1 } } ∧
  FieldsFit State.reset.params ∧
  766 ≤ State.reset.params.bufCap ∧ State.reset.params.bufCap ≤ 65535

/-- Every step keeps INV1 to INV4 (10_state.md R22) when `BUF_CAP` lies in its range (00_scope.md R7, R8), and INV5 holds in
every state. That a Loop step is not enabled is read as: the Loop's turn changes nothing (the model's reading, log 14). -/
def Obligations.StepKeepsTheSyncInvariants : Prop :=
  (∀ s s' : State, s.params.inRange → SyncInv s → step s = .next s' → SyncInv s') ∧ ∀ s : State, Inv5 s

/-- Every step keeps the bound of 41_frame_buffer.md R74 on what HUNT retains. -/
def Obligations.StepKeepsTheHuntBound : Prop :=
  ∀ s s' : State, s.params.inRange → SyncInv s → HuntRetainsFew s → step s = .next s' → HuntRetainsFew s'

/-- At most 254 + `SLACK` bytes are retained across an ingest, 510 with this hardware's `SLACK`; so where `BUF_CAP` is at
least 254 + 2 `SLACK`, which is then 766, it can always ask for `SLACK` new ones, and the buffer then fits
(41_frame_buffer.md R74, 00_scope.md R7, R8). -/
def Obligations.IngestRetainsAtMost510 : Prop :=
  (∀ s : State, s.params.lenOff ≤ 255 → 1 ≤ s.params.slack → 254 + 2 * s.params.slack ≤ s.params.bufCap →
    SyncInv s → HuntRetainsFew s → s.params.slack ≤ s.rxq.length →
    (s.sync = .locked →
      s.bufLen < s.cur.toNat + (Memory.read s.buf (s.cur.toNat + s.params.lenOff)).toNat + s.params.slack) →
    (retained s).length ≤ 254 + s.params.slack ∧ (s.params.slack = 256 → (retained s).length ≤ 510) ∧
    s.params.slack ≤ ingestRequest s.rxq.length s ∧
    (ingest s.rxq.length s).bufLen ≤ (retained s).length + ingestRequest s.rxq.length s ∧
    (retained s).length + ingestRequest s.rxq.length s ≤ s.params.bufCap) ∧
  ∀ p : Params, p.slack = 256 → (p.inRange ↔ 254 + 2 * p.slack ≤ p.bufCap ∧ p.bufCap < 2 ^ 16)

/-- Every step keeps the buffer's cells in canonical form, all below `BUF_LEN` (the model's own form, log 6). -/
def Obligations.StepKeepsTheBufferForm : Prop :=
  ∀ s s' : State, BufferWf s → step s = .next s' → BufferWf s'

/-- No step moves the window (10_state.md R23), so an aligned window stays aligned, nor changes a parameter of 00_scope.md
R7. That the platform's `BLOCK_BASE` and the parameters are fields of State is the model's choice (logs 5 and 18). -/
def Obligations.StepKeepsTheWindow : Prop :=
  ∀ s s' : State, step s = .next s' → s'.blockBase = s.blockBase ∧ s'.params = s.params

/-- Only a `SNAP` write, or reset, changes the snapshot (10_state.md R18, 70_reset_and_hazards.md R131). -/
def Obligations.ViewChangesOnlyAtSnap : Prop :=
  ∀ s s' : State, step s = .next s' →
    (s'.view = s.view ∧ s'.viewValid = s.viewValid ∧ s'.viewSeqn = s.viewSeqn) ∨
    (∃ v rest, s.script = .hostWrite (s.blockBase + 0x02C) 4 v :: rest ∧ s'.view = s.pub ∧
      s'.viewValid = s.pubValid) ∨
    ∃ rest, s.script = .reset :: rest

/-- Error bits are sticky (60_exceptions.md R116, 10_state.md R26): a step that loses one is a `STATUS` write with a 1 at
that bit, or reset. -/
def Obligations.ErrorBitsAreSticky : Prop :=
  ∀ s s' : State, step s = .next s' →
    ((s.errBusy = true → s'.errBusy = true) ∧ (s.errIllegal = true → s'.errIllegal = true) ∧
      (s.errBounds = true → s'.errBounds = true) ∧ (s.errShort = true → s'.errShort = true)) ∨
    (∃ v rest, s.script = .hostWrite (s.blockBase + 0x004) 4 v :: rest ∧
      (s.errBusy = true → s'.errBusy = false → v.getLsbD 4 = true) ∧
      (s.errIllegal = true → s'.errIllegal = false → v.getLsbD 5 = true) ∧
      (s.errBounds = true → s'.errBounds = false → v.getLsbD 6 = true) ∧
      (s.errShort = true → s'.errShort = false → v.getLsbD 7 = true)) ∨
    ∃ rest, s.script = .reset :: rest

/-- The published sample has one writer at a time (20_memory.md R50, 43_poller.md R106, 60_exceptions.md R118): a step that
changes it publishes exactly once, and is either a Loop step with `RUN = RUNNING = 1` or a host's `NEXT` with
`RUNNING = 0`; the one other step is reset. -/
def Obligations.PublishHasOneWriter : Prop :=
  ∀ s s' : State, step s = .next s' →
    (s'.pub = s.pub ∧ s'.pubValid = s.pubValid ∧ s'.frameCnt = s.frameCnt) ∨
    (s'.pubValid = true ∧ s'.frameCnt = BitVec.ofNat 32 ((s.frameCnt.toNat + 1) % 2 ^ s.params.cntW) ∧
      ((s.running = true ∧ s.run = true ∧ (s.script = [] ∨ ∃ rest, s.script = .loop :: rest)) ∨
       (s.running = false ∧ ∃ rest, s.script = .hostWrite (s.blockBase + 0x008) 4 0x00000001 :: rest))) ∨
    ∃ rest, s.script = .reset :: rest

/-- The transport is a queue (20_memory.md R38, R39): a step takes bytes from its front, or is an Env step that appends at
its end. -/
def Obligations.TransportIsAQueue : Prop :=
  ∀ s s' : State, step s = .next s' →
    (∃ k, k ≤ s.rxq.length ∧ s'.rxq = s.rxq.drop k) ∨
    ∃ bytes rest, s.script = .envAppend bytes :: rest ∧ s'.rxq = s.rxq ++ bytes

/-- What can stop a step (60_exceptions.md R110, U1, U2): a host access that is not supported, or a transport that is gone.
No step is refused; with a transport, a supported host access and every step that is no host access answer a next state;
without one, a Loop step with `RUNNING = 1` faults. The faults, and that they stop the step, are the model's choices (logs
8, 9 and 10). -/
def Obligations.OnlyTheEnvironmentStopsAStep : Prop :=
  ∀ s : State,
    let accesses := fun addr bytes : Nat =>
      ∃ rest, s.script = .hostRead addr bytes :: rest ∨ ∃ v, s.script = .hostWrite addr bytes v :: rest
    let supported := fun addr bytes : Nat =>
      s.blockBase ≤ addr ∧ addr < s.blockBase + 4096 ∧ bytes = 4 ∧ addr % 4 = 0
    (∀ r, step s ≠ .refused r) ∧
    (s.transportUp = true → (∀ addr bytes, accesses addr bytes → supported addr bytes) → ∃ s', step s = .next s') ∧
    (s.transportUp = false → s.running = true → (s.script = [] ∨ ∃ rest, s.script = .loop :: rest) →
      step s = .fault .transportGone) ∧
    ∀ f, step s = .fault f →
      (f = .transportGone ∧ s.transportUp = false) ∨
      (f ≠ .transportGone ∧ ∃ addr bytes, accesses addr bytes ∧ ¬ supported addr bytes)
end

