-- ==== Sys2Proof/Laws/Decode.lean ====
section
/-! SUPPORT. The fields of an encoded command word and the register map's lookup. -/

namespace Sys2Proof

/-- The register map finds every register at its offset. -/
@[simp] theorem regAt_regOffset (r : Reg) : regAt (regOffset r) = some r := by
  cases r with
  | view f => cases f <;> rfl
  | _ => rfl

/-- The register found at an offset has that offset. -/
theorem regOffset_of_regAt {off : Nat} {r : Reg} (h : regAt off = some r) : regOffset r = off := by
  simpa using List.find?_some h

/-- Every offset of a named register is that of an aligned word of the window. -/
theorem regOffset_lt (r : Reg) : regOffset r < 0x1000 ∧ regOffset r % 4 = 0 := by
  cases r with
  | view f => cases f <;> decide
  | _ => decide

/-- The bits of a command word: its opcode, twelve zeros, its index. -/
theorem getLsbD_cmdWord {op idx : Nat} (h : op < 16) (i : Nat) :
    (cmdWord op idx).getLsbD i =
      if i < 4 then op.testBit i else if i < 16 then false else decide (i < 32) && idx.testBit (i - 16) := by
  have hop : ∀ j, 4 ≤ j → op.testBit j = false := fun j hj =>
    Nat.testBit_lt_two_pow (lt_of_lt_of_le h (by simpa using Nat.pow_le_pow_right (n := 2) (by omega) hj))
  simp only [cmdWord, BitVec.getLsbD_or, BitVec.getLsbD_shiftLeft, BitVec.getLsbD_ofNat]
  by_cases h4 : i < 4
  · simp [h4, show i < 16 by omega, show i < 32 by omega]
  · by_cases h16 : i < 16
    · simp [h4, h16, hop i (by omega)]
    · by_cases h32 : i < 32
      · simp [h4, h16, h32, hop i (by omega), show i - 16 < 32 by omega]
      · simp [h4, h16, h32]

@[simp] theorem opField_cmdWord {op idx : Nat} (h : op < 16) : (opField (cmdWord op idx)).toNat = op := by
  have : opField (cmdWord op idx) = BitVec.ofNat 4 op := by
    apply BitVec.eq_of_getLsbD_eq
    intro i hi
    simp only [opField, BitVec.getLsbD_extractLsb', getLsbD_cmdWord h, BitVec.getLsbD_ofNat]
    simp [hi]
  rw [this, BitVec.toNat_ofNat]
  omega

@[simp] theorem reservedField_cmdWord {op idx : Nat} (h : op < 16) : reservedField (cmdWord op idx) = 0 := by
  apply BitVec.eq_of_getLsbD_eq
  intro i hi
  simp [reservedField, getLsbD_cmdWord h, show ¬ 4 + i < 4 by omega, show 4 + i < 16 by omega]

@[simp] theorem idxField_cmdWord {op idx : Nat} (h : op < 16) (hi : idx < 65536) : idxField (cmdWord op idx) = idx := by
  have : (cmdWord op idx).extractLsb' 16 16 = BitVec.ofNat 16 idx := by
    apply BitVec.eq_of_getLsbD_eq
    intro i h16
    simp only [BitVec.getLsbD_extractLsb', getLsbD_cmdWord h, BitVec.getLsbD_ofNat]
    simp [h16, show ¬ 16 + i < 4 by omega, show 16 + i < 32 by omega]
  simp only [idxField, this, BitVec.toNat_ofNat]
  omega

/-- A word with a reserved bit set is no command (30_encoding.md R59 (b)). -/
theorem decodeCmd_of_reserved {w : Word} (h : reservedField w ≠ 0) : decodeCmd w = .error .reservedBits := by
  simp only [decodeCmd, if_pos h]

/-- A word without a reserved bit is the word of its opcode and its index. -/
theorem eq_cmdWord_of_reserved {w : Word} (h : reservedField w = 0) : w = cmdWord (opField w).toNat (idxField w) := by
  apply BitVec.eq_of_getLsbD_eq
  intro i hi
  rw [getLsbD_cmdWord (opField w).isLt]
  split
  · rw [BitVec.testBit_toNat]
    simp [opField, *]
  · split
    · have hr := congrArg (fun v => v.getLsbD (i - 4)) h
      simpa [reservedField, show i - 4 < 12 by omega, show 4 + (i - 4) = i by omega] using hr
    · simp only [idxField, hi, decide_true, Bool.true_and]
      rw [BitVec.testBit_toNat]
      simp [show i - 16 < 16 by omega, show 16 + (i - 16) = i by omega]

theorem opField_lt (w : Word) : (opField w).toNat < 16 := (opField w).isLt

theorem idxField_lt (w : Word) : idxField w < 65536 := (w.extractLsb' 16 16).isLt

/-- The bytes of a word, put together again, are the word. -/
@[simp] theorem decodeBytes_lanesOf (w : Word) : decodeBytes (lanesOf w) = decodeCmd w := by
  have : wordOfLanes (lane w 0) (lane w 1) (lane w 2) (lane w 3) = w := by
    apply BitVec.eq_of_getLsbD_eq
    intro i hi
    simp only [wordOfLanes, lane, BitVec.getLsbD_append, BitVec.getLsbD_extractLsb']
    by_cases h8 : i < 8
    · simp [h8]
    · by_cases h16 : i < 16
      · simp [h8, show i - 8 < 8 by omega, show 8 + (i - 8) = i by omega]
      · by_cases h24 : i < 24
        · simp [h8, show ¬ i - 8 < 8 by omega, show i - 8 - 8 < 8 by omega, show 16 + (i - 8 - 8) = i by omega]
        · simp [h8, show ¬ i - 8 < 8 by omega, show ¬ i - 8 - 8 < 8 by omega, show i - 8 - 8 - 8 < 8 by omega,
            show 24 + (i - 8 - 8 - 8) = i by omega]
  simp [decodeBytes, lanesOf, this]

end Sys2Proof
end

