-- ==== Sys2Proof/Laws/State.lean ====
section
/-! SUPPORT. What each named update of the state leaves in each field: one lemma per field per update, by definition. -/

namespace Sys2Proof.Machine

variable (s : State)

/-! ### `State.setBuffer` -/

@[simp] theorem State.setBuffer_buf (bs : List Byte) : (s.setBuffer bs).buf = Memory.ofBytes bs := rfl
@[simp] theorem State.setBuffer_bufLen (bs : List Byte) : (s.setBuffer bs).bufLen = bs.length := rfl
@[simp] theorem State.setBuffer_sync (bs : List Byte) : (s.setBuffer bs).sync = s.sync := rfl
@[simp] theorem State.setBuffer_cur (bs : List Byte) : (s.setBuffer bs).cur = s.cur := rfl
@[simp] theorem State.setBuffer_scanFrom (bs : List Byte) : (s.setBuffer bs).scanFrom = s.scanFrom := rfl
@[simp] theorem State.setBuffer_pub (bs : List Byte) : (s.setBuffer bs).pub = s.pub := rfl
@[simp] theorem State.setBuffer_pubValid (bs : List Byte) : (s.setBuffer bs).pubValid = s.pubValid := rfl
@[simp] theorem State.setBuffer_view (bs : List Byte) : (s.setBuffer bs).view = s.view := rfl
@[simp] theorem State.setBuffer_viewValid (bs : List Byte) : (s.setBuffer bs).viewValid = s.viewValid := rfl
@[simp] theorem State.setBuffer_viewSeqn (bs : List Byte) : (s.setBuffer bs).viewSeqn = s.viewSeqn := rfl
@[simp] theorem State.setBuffer_run (bs : List Byte) : (s.setBuffer bs).run = s.run := rfl
@[simp] theorem State.setBuffer_running (bs : List Byte) : (s.setBuffer bs).running = s.running := rfl
@[simp] theorem State.setBuffer_frameCnt (bs : List Byte) : (s.setBuffer bs).frameCnt = s.frameCnt := rfl
@[simp] theorem State.setBuffer_spuriousCnt (bs : List Byte) : (s.setBuffer bs).spuriousCnt = s.spuriousCnt := rfl
@[simp] theorem State.setBuffer_shortCnt (bs : List Byte) : (s.setBuffer bs).shortCnt = s.shortCnt := rfl
@[simp] theorem State.setBuffer_result (bs : List Byte) : (s.setBuffer bs).result = s.result := rfl
@[simp] theorem State.setBuffer_errBusy (bs : List Byte) : (s.setBuffer bs).errBusy = s.errBusy := rfl
@[simp] theorem State.setBuffer_errIllegal (bs : List Byte) : (s.setBuffer bs).errIllegal = s.errIllegal := rfl
@[simp] theorem State.setBuffer_errBounds (bs : List Byte) : (s.setBuffer bs).errBounds = s.errBounds := rfl
@[simp] theorem State.setBuffer_errShort (bs : List Byte) : (s.setBuffer bs).errShort = s.errShort := rfl
@[simp] theorem State.setBuffer_rxq (bs : List Byte) : (s.setBuffer bs).rxq = s.rxq := rfl
@[simp] theorem State.setBuffer_transportUp (bs : List Byte) : (s.setBuffer bs).transportUp = s.transportUp := rfl
@[simp] theorem State.setBuffer_draws (bs : List Byte) : (s.setBuffer bs).draws = s.draws := rfl
@[simp] theorem State.setBuffer_drawCount (bs : List Byte) : (s.setBuffer bs).drawCount = s.drawCount := rfl
@[simp] theorem State.setBuffer_script (bs : List Byte) : (s.setBuffer bs).script = s.script := rfl
@[simp] theorem State.setBuffer_busData (bs : List Byte) : (s.setBuffer bs).busData = s.busData := rfl
@[simp] theorem State.setBuffer_blockBase (bs : List Byte) : (s.setBuffer bs).blockBase = s.blockBase := rfl
@[simp] theorem State.setBuffer_params (bs : List Byte) : (s.setBuffer bs).params = s.params := rfl

/-! ### `State.setPosition` -/

@[simp] theorem State.setPosition_buf (y : Sync) (c f : Nat) : (s.setPosition y c f).buf = s.buf := rfl
@[simp] theorem State.setPosition_bufLen (y : Sync) (c f : Nat) : (s.setPosition y c f).bufLen = s.bufLen := rfl
@[simp] theorem State.setPosition_sync (y : Sync) (c f : Nat) : (s.setPosition y c f).sync = y := rfl
@[simp] theorem State.setPosition_cur (y : Sync) (c f : Nat) : (s.setPosition y c f).cur = BitVec.ofNat 16 c := rfl
@[simp] theorem State.setPosition_scanFrom (y : Sync) (c f : Nat) : (s.setPosition y c f).scanFrom = BitVec.ofNat 16 f := rfl
@[simp] theorem State.setPosition_pub (y : Sync) (c f : Nat) : (s.setPosition y c f).pub = s.pub := rfl
@[simp] theorem State.setPosition_pubValid (y : Sync) (c f : Nat) : (s.setPosition y c f).pubValid = s.pubValid := rfl
@[simp] theorem State.setPosition_view (y : Sync) (c f : Nat) : (s.setPosition y c f).view = s.view := rfl
@[simp] theorem State.setPosition_viewValid (y : Sync) (c f : Nat) : (s.setPosition y c f).viewValid = s.viewValid := rfl
@[simp] theorem State.setPosition_viewSeqn (y : Sync) (c f : Nat) : (s.setPosition y c f).viewSeqn = s.viewSeqn := rfl
@[simp] theorem State.setPosition_run (y : Sync) (c f : Nat) : (s.setPosition y c f).run = s.run := rfl
@[simp] theorem State.setPosition_running (y : Sync) (c f : Nat) : (s.setPosition y c f).running = s.running := rfl
@[simp] theorem State.setPosition_frameCnt (y : Sync) (c f : Nat) : (s.setPosition y c f).frameCnt = s.frameCnt := rfl
@[simp] theorem State.setPosition_spuriousCnt (y : Sync) (c f : Nat) : (s.setPosition y c f).spuriousCnt = s.spuriousCnt := rfl
@[simp] theorem State.setPosition_shortCnt (y : Sync) (c f : Nat) : (s.setPosition y c f).shortCnt = s.shortCnt := rfl
@[simp] theorem State.setPosition_result (y : Sync) (c f : Nat) : (s.setPosition y c f).result = s.result := rfl
@[simp] theorem State.setPosition_errBusy (y : Sync) (c f : Nat) : (s.setPosition y c f).errBusy = s.errBusy := rfl
@[simp] theorem State.setPosition_errIllegal (y : Sync) (c f : Nat) : (s.setPosition y c f).errIllegal = s.errIllegal := rfl
@[simp] theorem State.setPosition_errBounds (y : Sync) (c f : Nat) : (s.setPosition y c f).errBounds = s.errBounds := rfl
@[simp] theorem State.setPosition_errShort (y : Sync) (c f : Nat) : (s.setPosition y c f).errShort = s.errShort := rfl
@[simp] theorem State.setPosition_rxq (y : Sync) (c f : Nat) : (s.setPosition y c f).rxq = s.rxq := rfl
@[simp] theorem State.setPosition_transportUp (y : Sync) (c f : Nat) : (s.setPosition y c f).transportUp = s.transportUp := rfl
@[simp] theorem State.setPosition_draws (y : Sync) (c f : Nat) : (s.setPosition y c f).draws = s.draws := rfl
@[simp] theorem State.setPosition_drawCount (y : Sync) (c f : Nat) : (s.setPosition y c f).drawCount = s.drawCount := rfl
@[simp] theorem State.setPosition_script (y : Sync) (c f : Nat) : (s.setPosition y c f).script = s.script := rfl
@[simp] theorem State.setPosition_busData (y : Sync) (c f : Nat) : (s.setPosition y c f).busData = s.busData := rfl
@[simp] theorem State.setPosition_blockBase (y : Sync) (c f : Nat) : (s.setPosition y c f).blockBase = s.blockBase := rfl
@[simp] theorem State.setPosition_params (y : Sync) (c f : Nat) : (s.setPosition y c f).params = s.params := rfl

/-! ### `State.setResult` -/

@[simp] theorem State.setResult_buf (w : Word) : (s.setResult w).buf = s.buf := rfl
@[simp] theorem State.setResult_bufLen (w : Word) : (s.setResult w).bufLen = s.bufLen := rfl
@[simp] theorem State.setResult_sync (w : Word) : (s.setResult w).sync = s.sync := rfl
@[simp] theorem State.setResult_cur (w : Word) : (s.setResult w).cur = s.cur := rfl
@[simp] theorem State.setResult_scanFrom (w : Word) : (s.setResult w).scanFrom = s.scanFrom := rfl
@[simp] theorem State.setResult_pub (w : Word) : (s.setResult w).pub = s.pub := rfl
@[simp] theorem State.setResult_pubValid (w : Word) : (s.setResult w).pubValid = s.pubValid := rfl
@[simp] theorem State.setResult_view (w : Word) : (s.setResult w).view = s.view := rfl
@[simp] theorem State.setResult_viewValid (w : Word) : (s.setResult w).viewValid = s.viewValid := rfl
@[simp] theorem State.setResult_viewSeqn (w : Word) : (s.setResult w).viewSeqn = s.viewSeqn := rfl
@[simp] theorem State.setResult_run (w : Word) : (s.setResult w).run = s.run := rfl
@[simp] theorem State.setResult_running (w : Word) : (s.setResult w).running = s.running := rfl
@[simp] theorem State.setResult_frameCnt (w : Word) : (s.setResult w).frameCnt = s.frameCnt := rfl
@[simp] theorem State.setResult_spuriousCnt (w : Word) : (s.setResult w).spuriousCnt = s.spuriousCnt := rfl
@[simp] theorem State.setResult_shortCnt (w : Word) : (s.setResult w).shortCnt = s.shortCnt := rfl
@[simp] theorem State.setResult_result (w : Word) : (s.setResult w).result = w := rfl
@[simp] theorem State.setResult_errBusy (w : Word) : (s.setResult w).errBusy = s.errBusy := rfl
@[simp] theorem State.setResult_errIllegal (w : Word) : (s.setResult w).errIllegal = s.errIllegal := rfl
@[simp] theorem State.setResult_errBounds (w : Word) : (s.setResult w).errBounds = s.errBounds := rfl
@[simp] theorem State.setResult_errShort (w : Word) : (s.setResult w).errShort = s.errShort := rfl
@[simp] theorem State.setResult_rxq (w : Word) : (s.setResult w).rxq = s.rxq := rfl
@[simp] theorem State.setResult_transportUp (w : Word) : (s.setResult w).transportUp = s.transportUp := rfl
@[simp] theorem State.setResult_draws (w : Word) : (s.setResult w).draws = s.draws := rfl
@[simp] theorem State.setResult_drawCount (w : Word) : (s.setResult w).drawCount = s.drawCount := rfl
@[simp] theorem State.setResult_script (w : Word) : (s.setResult w).script = s.script := rfl
@[simp] theorem State.setResult_busData (w : Word) : (s.setResult w).busData = s.busData := rfl
@[simp] theorem State.setResult_blockBase (w : Word) : (s.setResult w).blockBase = s.blockBase := rfl
@[simp] theorem State.setResult_params (w : Word) : (s.setResult w).params = s.params := rfl

/-! ### `State.addSpurious` -/

@[simp] theorem State.addSpurious_buf (n : Nat) : (s.addSpurious n).buf = s.buf := rfl
@[simp] theorem State.addSpurious_bufLen (n : Nat) : (s.addSpurious n).bufLen = s.bufLen := rfl
@[simp] theorem State.addSpurious_sync (n : Nat) : (s.addSpurious n).sync = s.sync := rfl
@[simp] theorem State.addSpurious_cur (n : Nat) : (s.addSpurious n).cur = s.cur := rfl
@[simp] theorem State.addSpurious_scanFrom (n : Nat) : (s.addSpurious n).scanFrom = s.scanFrom := rfl
@[simp] theorem State.addSpurious_pub (n : Nat) : (s.addSpurious n).pub = s.pub := rfl
@[simp] theorem State.addSpurious_pubValid (n : Nat) : (s.addSpurious n).pubValid = s.pubValid := rfl
@[simp] theorem State.addSpurious_view (n : Nat) : (s.addSpurious n).view = s.view := rfl
@[simp] theorem State.addSpurious_viewValid (n : Nat) : (s.addSpurious n).viewValid = s.viewValid := rfl
@[simp] theorem State.addSpurious_viewSeqn (n : Nat) : (s.addSpurious n).viewSeqn = s.viewSeqn := rfl
@[simp] theorem State.addSpurious_run (n : Nat) : (s.addSpurious n).run = s.run := rfl
@[simp] theorem State.addSpurious_running (n : Nat) : (s.addSpurious n).running = s.running := rfl
@[simp] theorem State.addSpurious_frameCnt (n : Nat) : (s.addSpurious n).frameCnt = s.frameCnt := rfl
@[simp] theorem State.addSpurious_spuriousCnt (n : Nat) : (s.addSpurious n).spuriousCnt = counterAfter s.params s.spuriousCnt n := rfl
@[simp] theorem State.addSpurious_shortCnt (n : Nat) : (s.addSpurious n).shortCnt = s.shortCnt := rfl
@[simp] theorem State.addSpurious_result (n : Nat) : (s.addSpurious n).result = s.result := rfl
@[simp] theorem State.addSpurious_errBusy (n : Nat) : (s.addSpurious n).errBusy = s.errBusy := rfl
@[simp] theorem State.addSpurious_errIllegal (n : Nat) : (s.addSpurious n).errIllegal = s.errIllegal := rfl
@[simp] theorem State.addSpurious_errBounds (n : Nat) : (s.addSpurious n).errBounds = s.errBounds := rfl
@[simp] theorem State.addSpurious_errShort (n : Nat) : (s.addSpurious n).errShort = s.errShort := rfl
@[simp] theorem State.addSpurious_rxq (n : Nat) : (s.addSpurious n).rxq = s.rxq := rfl
@[simp] theorem State.addSpurious_transportUp (n : Nat) : (s.addSpurious n).transportUp = s.transportUp := rfl
@[simp] theorem State.addSpurious_draws (n : Nat) : (s.addSpurious n).draws = s.draws := rfl
@[simp] theorem State.addSpurious_drawCount (n : Nat) : (s.addSpurious n).drawCount = s.drawCount := rfl
@[simp] theorem State.addSpurious_script (n : Nat) : (s.addSpurious n).script = s.script := rfl
@[simp] theorem State.addSpurious_busData (n : Nat) : (s.addSpurious n).busData = s.busData := rfl
@[simp] theorem State.addSpurious_blockBase (n : Nat) : (s.addSpurious n).blockBase = s.blockBase := rfl
@[simp] theorem State.addSpurious_params (n : Nat) : (s.addSpurious n).params = s.params := rfl

/-! ### `State.countShort` -/

@[simp] theorem State.countShort_buf : (s.countShort).buf = s.buf := rfl
@[simp] theorem State.countShort_bufLen : (s.countShort).bufLen = s.bufLen := rfl
@[simp] theorem State.countShort_sync : (s.countShort).sync = s.sync := rfl
@[simp] theorem State.countShort_cur : (s.countShort).cur = s.cur := rfl
@[simp] theorem State.countShort_scanFrom : (s.countShort).scanFrom = s.scanFrom := rfl
@[simp] theorem State.countShort_pub : (s.countShort).pub = s.pub := rfl
@[simp] theorem State.countShort_pubValid : (s.countShort).pubValid = s.pubValid := rfl
@[simp] theorem State.countShort_view : (s.countShort).view = s.view := rfl
@[simp] theorem State.countShort_viewValid : (s.countShort).viewValid = s.viewValid := rfl
@[simp] theorem State.countShort_viewSeqn : (s.countShort).viewSeqn = s.viewSeqn := rfl
@[simp] theorem State.countShort_run : (s.countShort).run = s.run := rfl
@[simp] theorem State.countShort_running : (s.countShort).running = s.running := rfl
@[simp] theorem State.countShort_frameCnt : (s.countShort).frameCnt = s.frameCnt := rfl
@[simp] theorem State.countShort_spuriousCnt : (s.countShort).spuriousCnt = s.spuriousCnt := rfl
@[simp] theorem State.countShort_shortCnt : (s.countShort).shortCnt = counterAfter s.params s.shortCnt 1 := rfl
@[simp] theorem State.countShort_result : (s.countShort).result = s.result := rfl
@[simp] theorem State.countShort_errBusy : (s.countShort).errBusy = s.errBusy := rfl
@[simp] theorem State.countShort_errIllegal : (s.countShort).errIllegal = s.errIllegal := rfl
@[simp] theorem State.countShort_errBounds : (s.countShort).errBounds = s.errBounds := rfl
@[simp] theorem State.countShort_errShort : (s.countShort).errShort = s.errShort := rfl
@[simp] theorem State.countShort_rxq : (s.countShort).rxq = s.rxq := rfl
@[simp] theorem State.countShort_transportUp : (s.countShort).transportUp = s.transportUp := rfl
@[simp] theorem State.countShort_draws : (s.countShort).draws = s.draws := rfl
@[simp] theorem State.countShort_drawCount : (s.countShort).drawCount = s.drawCount := rfl
@[simp] theorem State.countShort_script : (s.countShort).script = s.script := rfl
@[simp] theorem State.countShort_busData : (s.countShort).busData = s.busData := rfl
@[simp] theorem State.countShort_blockBase : (s.countShort).blockBase = s.blockBase := rfl
@[simp] theorem State.countShort_params : (s.countShort).params = s.params := rfl

/-! ### `State.publish` -/

@[simp] theorem State.publish_buf (p : Sample) : (s.publish p).buf = s.buf := rfl
@[simp] theorem State.publish_bufLen (p : Sample) : (s.publish p).bufLen = s.bufLen := rfl
@[simp] theorem State.publish_sync (p : Sample) : (s.publish p).sync = s.sync := rfl
@[simp] theorem State.publish_cur (p : Sample) : (s.publish p).cur = s.cur := rfl
@[simp] theorem State.publish_scanFrom (p : Sample) : (s.publish p).scanFrom = s.scanFrom := rfl
@[simp] theorem State.publish_pub (p : Sample) : (s.publish p).pub = p := rfl
@[simp] theorem State.publish_pubValid (p : Sample) : (s.publish p).pubValid = true := rfl
@[simp] theorem State.publish_view (p : Sample) : (s.publish p).view = s.view := rfl
@[simp] theorem State.publish_viewValid (p : Sample) : (s.publish p).viewValid = s.viewValid := rfl
@[simp] theorem State.publish_viewSeqn (p : Sample) : (s.publish p).viewSeqn = s.viewSeqn := rfl
@[simp] theorem State.publish_run (p : Sample) : (s.publish p).run = s.run := rfl
@[simp] theorem State.publish_running (p : Sample) : (s.publish p).running = s.running := rfl
@[simp] theorem State.publish_frameCnt (p : Sample) : (s.publish p).frameCnt = counterAfter s.params s.frameCnt 1 := rfl
@[simp] theorem State.publish_spuriousCnt (p : Sample) : (s.publish p).spuriousCnt = s.spuriousCnt := rfl
@[simp] theorem State.publish_shortCnt (p : Sample) : (s.publish p).shortCnt = s.shortCnt := rfl
@[simp] theorem State.publish_result (p : Sample) : (s.publish p).result = s.result := rfl
@[simp] theorem State.publish_errBusy (p : Sample) : (s.publish p).errBusy = s.errBusy := rfl
@[simp] theorem State.publish_errIllegal (p : Sample) : (s.publish p).errIllegal = s.errIllegal := rfl
@[simp] theorem State.publish_errBounds (p : Sample) : (s.publish p).errBounds = s.errBounds := rfl
@[simp] theorem State.publish_errShort (p : Sample) : (s.publish p).errShort = s.errShort := rfl
@[simp] theorem State.publish_rxq (p : Sample) : (s.publish p).rxq = s.rxq := rfl
@[simp] theorem State.publish_transportUp (p : Sample) : (s.publish p).transportUp = s.transportUp := rfl
@[simp] theorem State.publish_draws (p : Sample) : (s.publish p).draws = s.draws := rfl
@[simp] theorem State.publish_drawCount (p : Sample) : (s.publish p).drawCount = s.drawCount := rfl
@[simp] theorem State.publish_script (p : Sample) : (s.publish p).script = s.script := rfl
@[simp] theorem State.publish_busData (p : Sample) : (s.publish p).busData = s.busData := rfl
@[simp] theorem State.publish_blockBase (p : Sample) : (s.publish p).blockBase = s.blockBase := rfl
@[simp] theorem State.publish_params (p : Sample) : (s.publish p).params = s.params := rfl

/-! ### `State.snapshot` -/

@[simp] theorem State.snapshot_buf : (s.snapshot).buf = s.buf := rfl
@[simp] theorem State.snapshot_bufLen : (s.snapshot).bufLen = s.bufLen := rfl
@[simp] theorem State.snapshot_sync : (s.snapshot).sync = s.sync := rfl
@[simp] theorem State.snapshot_cur : (s.snapshot).cur = s.cur := rfl
@[simp] theorem State.snapshot_scanFrom : (s.snapshot).scanFrom = s.scanFrom := rfl
@[simp] theorem State.snapshot_pub : (s.snapshot).pub = s.pub := rfl
@[simp] theorem State.snapshot_pubValid : (s.snapshot).pubValid = s.pubValid := rfl
@[simp] theorem State.snapshot_view : (s.snapshot).view = s.pub := rfl
@[simp] theorem State.snapshot_viewValid : (s.snapshot).viewValid = s.pubValid := rfl
@[simp] theorem State.snapshot_viewSeqn : (s.snapshot).viewSeqn = s.frameCnt.setWidth 31 := rfl
@[simp] theorem State.snapshot_run : (s.snapshot).run = s.run := rfl
@[simp] theorem State.snapshot_running : (s.snapshot).running = s.running := rfl
@[simp] theorem State.snapshot_frameCnt : (s.snapshot).frameCnt = s.frameCnt := rfl
@[simp] theorem State.snapshot_spuriousCnt : (s.snapshot).spuriousCnt = s.spuriousCnt := rfl
@[simp] theorem State.snapshot_shortCnt : (s.snapshot).shortCnt = s.shortCnt := rfl
@[simp] theorem State.snapshot_result : (s.snapshot).result = s.result := rfl
@[simp] theorem State.snapshot_errBusy : (s.snapshot).errBusy = s.errBusy := rfl
@[simp] theorem State.snapshot_errIllegal : (s.snapshot).errIllegal = s.errIllegal := rfl
@[simp] theorem State.snapshot_errBounds : (s.snapshot).errBounds = s.errBounds := rfl
@[simp] theorem State.snapshot_errShort : (s.snapshot).errShort = s.errShort := rfl
@[simp] theorem State.snapshot_rxq : (s.snapshot).rxq = s.rxq := rfl
@[simp] theorem State.snapshot_transportUp : (s.snapshot).transportUp = s.transportUp := rfl
@[simp] theorem State.snapshot_draws : (s.snapshot).draws = s.draws := rfl
@[simp] theorem State.snapshot_drawCount : (s.snapshot).drawCount = s.drawCount := rfl
@[simp] theorem State.snapshot_script : (s.snapshot).script = s.script := rfl
@[simp] theorem State.snapshot_busData : (s.snapshot).busData = s.busData := rfl
@[simp] theorem State.snapshot_blockBase : (s.snapshot).blockBase = s.blockBase := rfl
@[simp] theorem State.snapshot_params : (s.snapshot).params = s.params := rfl

/-! ### `State.clearErrors` -/

@[simp] theorem State.clearErrors_buf (v : Word) : (s.clearErrors v).buf = s.buf := rfl
@[simp] theorem State.clearErrors_bufLen (v : Word) : (s.clearErrors v).bufLen = s.bufLen := rfl
@[simp] theorem State.clearErrors_sync (v : Word) : (s.clearErrors v).sync = s.sync := rfl
@[simp] theorem State.clearErrors_cur (v : Word) : (s.clearErrors v).cur = s.cur := rfl
@[simp] theorem State.clearErrors_scanFrom (v : Word) : (s.clearErrors v).scanFrom = s.scanFrom := rfl
@[simp] theorem State.clearErrors_pub (v : Word) : (s.clearErrors v).pub = s.pub := rfl
@[simp] theorem State.clearErrors_pubValid (v : Word) : (s.clearErrors v).pubValid = s.pubValid := rfl
@[simp] theorem State.clearErrors_view (v : Word) : (s.clearErrors v).view = s.view := rfl
@[simp] theorem State.clearErrors_viewValid (v : Word) : (s.clearErrors v).viewValid = s.viewValid := rfl
@[simp] theorem State.clearErrors_viewSeqn (v : Word) : (s.clearErrors v).viewSeqn = s.viewSeqn := rfl
@[simp] theorem State.clearErrors_run (v : Word) : (s.clearErrors v).run = s.run := rfl
@[simp] theorem State.clearErrors_running (v : Word) : (s.clearErrors v).running = s.running := rfl
@[simp] theorem State.clearErrors_frameCnt (v : Word) : (s.clearErrors v).frameCnt = s.frameCnt := rfl
@[simp] theorem State.clearErrors_spuriousCnt (v : Word) : (s.clearErrors v).spuriousCnt = s.spuriousCnt := rfl
@[simp] theorem State.clearErrors_shortCnt (v : Word) : (s.clearErrors v).shortCnt = s.shortCnt := rfl
@[simp] theorem State.clearErrors_result (v : Word) : (s.clearErrors v).result = s.result := rfl
@[simp] theorem State.clearErrors_errBusy (v : Word) : (s.clearErrors v).errBusy = (s.errBusy && !v.getLsbD 4) := rfl
@[simp] theorem State.clearErrors_errIllegal (v : Word) : (s.clearErrors v).errIllegal = (s.errIllegal && !v.getLsbD 5) := rfl
@[simp] theorem State.clearErrors_errBounds (v : Word) : (s.clearErrors v).errBounds = (s.errBounds && !v.getLsbD 6) := rfl
@[simp] theorem State.clearErrors_errShort (v : Word) : (s.clearErrors v).errShort = (s.errShort && !v.getLsbD 7) := rfl
@[simp] theorem State.clearErrors_rxq (v : Word) : (s.clearErrors v).rxq = s.rxq := rfl
@[simp] theorem State.clearErrors_transportUp (v : Word) : (s.clearErrors v).transportUp = s.transportUp := rfl
@[simp] theorem State.clearErrors_draws (v : Word) : (s.clearErrors v).draws = s.draws := rfl
@[simp] theorem State.clearErrors_drawCount (v : Word) : (s.clearErrors v).drawCount = s.drawCount := rfl
@[simp] theorem State.clearErrors_script (v : Word) : (s.clearErrors v).script = s.script := rfl
@[simp] theorem State.clearErrors_busData (v : Word) : (s.clearErrors v).busData = s.busData := rfl
@[simp] theorem State.clearErrors_blockBase (v : Word) : (s.clearErrors v).blockBase = s.blockBase := rfl
@[simp] theorem State.clearErrors_params (v : Word) : (s.clearErrors v).params = s.params := rfl

/-! ### `State.writeCtrl` -/

@[simp] theorem State.writeCtrl_buf (v : Word) : (s.writeCtrl v).buf = s.buf := rfl
@[simp] theorem State.writeCtrl_bufLen (v : Word) : (s.writeCtrl v).bufLen = s.bufLen := rfl
@[simp] theorem State.writeCtrl_sync (v : Word) : (s.writeCtrl v).sync = s.sync := rfl
@[simp] theorem State.writeCtrl_cur (v : Word) : (s.writeCtrl v).cur = s.cur := rfl
@[simp] theorem State.writeCtrl_scanFrom (v : Word) : (s.writeCtrl v).scanFrom = s.scanFrom := rfl
@[simp] theorem State.writeCtrl_pub (v : Word) : (s.writeCtrl v).pub = s.pub := rfl
@[simp] theorem State.writeCtrl_pubValid (v : Word) : (s.writeCtrl v).pubValid = s.pubValid := rfl
@[simp] theorem State.writeCtrl_view (v : Word) : (s.writeCtrl v).view = s.view := rfl
@[simp] theorem State.writeCtrl_viewValid (v : Word) : (s.writeCtrl v).viewValid = s.viewValid := rfl
@[simp] theorem State.writeCtrl_viewSeqn (v : Word) : (s.writeCtrl v).viewSeqn = s.viewSeqn := rfl
@[simp] theorem State.writeCtrl_run (v : Word) : (s.writeCtrl v).run = v.getLsbD 0 := rfl
@[simp] theorem State.writeCtrl_running (v : Word) : (s.writeCtrl v).running = (s.running || v.getLsbD 0) := rfl
@[simp] theorem State.writeCtrl_frameCnt (v : Word) : (s.writeCtrl v).frameCnt = s.frameCnt := rfl
@[simp] theorem State.writeCtrl_spuriousCnt (v : Word) : (s.writeCtrl v).spuriousCnt = s.spuriousCnt := rfl
@[simp] theorem State.writeCtrl_shortCnt (v : Word) : (s.writeCtrl v).shortCnt = s.shortCnt := rfl
@[simp] theorem State.writeCtrl_result (v : Word) : (s.writeCtrl v).result = s.result := rfl
@[simp] theorem State.writeCtrl_errBusy (v : Word) : (s.writeCtrl v).errBusy = s.errBusy := rfl
@[simp] theorem State.writeCtrl_errIllegal (v : Word) : (s.writeCtrl v).errIllegal = s.errIllegal := rfl
@[simp] theorem State.writeCtrl_errBounds (v : Word) : (s.writeCtrl v).errBounds = s.errBounds := rfl
@[simp] theorem State.writeCtrl_errShort (v : Word) : (s.writeCtrl v).errShort = s.errShort := rfl
@[simp] theorem State.writeCtrl_rxq (v : Word) : (s.writeCtrl v).rxq = s.rxq := rfl
@[simp] theorem State.writeCtrl_transportUp (v : Word) : (s.writeCtrl v).transportUp = s.transportUp := rfl
@[simp] theorem State.writeCtrl_draws (v : Word) : (s.writeCtrl v).draws = s.draws := rfl
@[simp] theorem State.writeCtrl_drawCount (v : Word) : (s.writeCtrl v).drawCount = s.drawCount := rfl
@[simp] theorem State.writeCtrl_script (v : Word) : (s.writeCtrl v).script = s.script := rfl
@[simp] theorem State.writeCtrl_busData (v : Word) : (s.writeCtrl v).busData = s.busData := rfl
@[simp] theorem State.writeCtrl_blockBase (v : Word) : (s.writeCtrl v).blockBase = s.blockBase := rfl
@[simp] theorem State.writeCtrl_params (v : Word) : (s.writeCtrl v).params = s.params := rfl

/-! ### `State.exitLoop` -/

@[simp] theorem State.exitLoop_buf : (s.exitLoop).buf = s.buf := rfl
@[simp] theorem State.exitLoop_bufLen : (s.exitLoop).bufLen = s.bufLen := rfl
@[simp] theorem State.exitLoop_sync : (s.exitLoop).sync = s.sync := rfl
@[simp] theorem State.exitLoop_cur : (s.exitLoop).cur = s.cur := rfl
@[simp] theorem State.exitLoop_scanFrom : (s.exitLoop).scanFrom = s.scanFrom := rfl
@[simp] theorem State.exitLoop_pub : (s.exitLoop).pub = s.pub := rfl
@[simp] theorem State.exitLoop_pubValid : (s.exitLoop).pubValid = s.pubValid := rfl
@[simp] theorem State.exitLoop_view : (s.exitLoop).view = s.view := rfl
@[simp] theorem State.exitLoop_viewValid : (s.exitLoop).viewValid = s.viewValid := rfl
@[simp] theorem State.exitLoop_viewSeqn : (s.exitLoop).viewSeqn = s.viewSeqn := rfl
@[simp] theorem State.exitLoop_run : (s.exitLoop).run = s.run := rfl
@[simp] theorem State.exitLoop_running : (s.exitLoop).running = false := rfl
@[simp] theorem State.exitLoop_frameCnt : (s.exitLoop).frameCnt = s.frameCnt := rfl
@[simp] theorem State.exitLoop_spuriousCnt : (s.exitLoop).spuriousCnt = s.spuriousCnt := rfl
@[simp] theorem State.exitLoop_shortCnt : (s.exitLoop).shortCnt = s.shortCnt := rfl
@[simp] theorem State.exitLoop_result : (s.exitLoop).result = s.result := rfl
@[simp] theorem State.exitLoop_errBusy : (s.exitLoop).errBusy = s.errBusy := rfl
@[simp] theorem State.exitLoop_errIllegal : (s.exitLoop).errIllegal = s.errIllegal := rfl
@[simp] theorem State.exitLoop_errBounds : (s.exitLoop).errBounds = s.errBounds := rfl
@[simp] theorem State.exitLoop_errShort : (s.exitLoop).errShort = s.errShort := rfl
@[simp] theorem State.exitLoop_rxq : (s.exitLoop).rxq = s.rxq := rfl
@[simp] theorem State.exitLoop_transportUp : (s.exitLoop).transportUp = s.transportUp := rfl
@[simp] theorem State.exitLoop_draws : (s.exitLoop).draws = s.draws := rfl
@[simp] theorem State.exitLoop_drawCount : (s.exitLoop).drawCount = s.drawCount := rfl
@[simp] theorem State.exitLoop_script : (s.exitLoop).script = s.script := rfl
@[simp] theorem State.exitLoop_busData : (s.exitLoop).busData = s.busData := rfl
@[simp] theorem State.exitLoop_blockBase : (s.exitLoop).blockBase = s.blockBase := rfl
@[simp] theorem State.exitLoop_params : (s.exitLoop).params = s.params := rfl

/-! ### `State.afterRead` -/

@[simp] theorem State.afterRead_buf (n : Nat) : (s.afterRead n).buf = s.buf := rfl
@[simp] theorem State.afterRead_bufLen (n : Nat) : (s.afterRead n).bufLen = s.bufLen := rfl
@[simp] theorem State.afterRead_sync (n : Nat) : (s.afterRead n).sync = s.sync := rfl
@[simp] theorem State.afterRead_cur (n : Nat) : (s.afterRead n).cur = s.cur := rfl
@[simp] theorem State.afterRead_scanFrom (n : Nat) : (s.afterRead n).scanFrom = s.scanFrom := rfl
@[simp] theorem State.afterRead_pub (n : Nat) : (s.afterRead n).pub = s.pub := rfl
@[simp] theorem State.afterRead_pubValid (n : Nat) : (s.afterRead n).pubValid = s.pubValid := rfl
@[simp] theorem State.afterRead_view (n : Nat) : (s.afterRead n).view = s.view := rfl
@[simp] theorem State.afterRead_viewValid (n : Nat) : (s.afterRead n).viewValid = s.viewValid := rfl
@[simp] theorem State.afterRead_viewSeqn (n : Nat) : (s.afterRead n).viewSeqn = s.viewSeqn := rfl
@[simp] theorem State.afterRead_run (n : Nat) : (s.afterRead n).run = s.run := rfl
@[simp] theorem State.afterRead_running (n : Nat) : (s.afterRead n).running = s.running := rfl
@[simp] theorem State.afterRead_frameCnt (n : Nat) : (s.afterRead n).frameCnt = s.frameCnt := rfl
@[simp] theorem State.afterRead_spuriousCnt (n : Nat) : (s.afterRead n).spuriousCnt = s.spuriousCnt := rfl
@[simp] theorem State.afterRead_shortCnt (n : Nat) : (s.afterRead n).shortCnt = s.shortCnt := rfl
@[simp] theorem State.afterRead_result (n : Nat) : (s.afterRead n).result = s.result := rfl
@[simp] theorem State.afterRead_errBusy (n : Nat) : (s.afterRead n).errBusy = s.errBusy := rfl
@[simp] theorem State.afterRead_errIllegal (n : Nat) : (s.afterRead n).errIllegal = s.errIllegal := rfl
@[simp] theorem State.afterRead_errBounds (n : Nat) : (s.afterRead n).errBounds = s.errBounds := rfl
@[simp] theorem State.afterRead_errShort (n : Nat) : (s.afterRead n).errShort = s.errShort := rfl
@[simp] theorem State.afterRead_rxq (n : Nat) : (s.afterRead n).rxq = s.rxq.drop (readCount n s) := rfl
@[simp] theorem State.afterRead_transportUp (n : Nat) : (s.afterRead n).transportUp = s.transportUp := rfl
@[simp] theorem State.afterRead_draws (n : Nat) : (s.afterRead n).draws = s.draws.tail := rfl
@[simp] theorem State.afterRead_drawCount (n : Nat) : (s.afterRead n).drawCount = (if s.draws.isEmpty then s.drawCount + 1 else s.drawCount) := rfl
@[simp] theorem State.afterRead_script (n : Nat) : (s.afterRead n).script = s.script := rfl
@[simp] theorem State.afterRead_busData (n : Nat) : (s.afterRead n).busData = s.busData := rfl
@[simp] theorem State.afterRead_blockBase (n : Nat) : (s.afterRead n).blockBase = s.blockBase := rfl
@[simp] theorem State.afterRead_params (n : Nat) : (s.afterRead n).params = s.params := rfl

/-! ### `State.appendRx` -/

@[simp] theorem State.appendRx_buf (bs : List Byte) : (s.appendRx bs).buf = s.buf := rfl
@[simp] theorem State.appendRx_bufLen (bs : List Byte) : (s.appendRx bs).bufLen = s.bufLen := rfl
@[simp] theorem State.appendRx_sync (bs : List Byte) : (s.appendRx bs).sync = s.sync := rfl
@[simp] theorem State.appendRx_cur (bs : List Byte) : (s.appendRx bs).cur = s.cur := rfl
@[simp] theorem State.appendRx_scanFrom (bs : List Byte) : (s.appendRx bs).scanFrom = s.scanFrom := rfl
@[simp] theorem State.appendRx_pub (bs : List Byte) : (s.appendRx bs).pub = s.pub := rfl
@[simp] theorem State.appendRx_pubValid (bs : List Byte) : (s.appendRx bs).pubValid = s.pubValid := rfl
@[simp] theorem State.appendRx_view (bs : List Byte) : (s.appendRx bs).view = s.view := rfl
@[simp] theorem State.appendRx_viewValid (bs : List Byte) : (s.appendRx bs).viewValid = s.viewValid := rfl
@[simp] theorem State.appendRx_viewSeqn (bs : List Byte) : (s.appendRx bs).viewSeqn = s.viewSeqn := rfl
@[simp] theorem State.appendRx_run (bs : List Byte) : (s.appendRx bs).run = s.run := rfl
@[simp] theorem State.appendRx_running (bs : List Byte) : (s.appendRx bs).running = s.running := rfl
@[simp] theorem State.appendRx_frameCnt (bs : List Byte) : (s.appendRx bs).frameCnt = s.frameCnt := rfl
@[simp] theorem State.appendRx_spuriousCnt (bs : List Byte) : (s.appendRx bs).spuriousCnt = s.spuriousCnt := rfl
@[simp] theorem State.appendRx_shortCnt (bs : List Byte) : (s.appendRx bs).shortCnt = s.shortCnt := rfl
@[simp] theorem State.appendRx_result (bs : List Byte) : (s.appendRx bs).result = s.result := rfl
@[simp] theorem State.appendRx_errBusy (bs : List Byte) : (s.appendRx bs).errBusy = s.errBusy := rfl
@[simp] theorem State.appendRx_errIllegal (bs : List Byte) : (s.appendRx bs).errIllegal = s.errIllegal := rfl
@[simp] theorem State.appendRx_errBounds (bs : List Byte) : (s.appendRx bs).errBounds = s.errBounds := rfl
@[simp] theorem State.appendRx_errShort (bs : List Byte) : (s.appendRx bs).errShort = s.errShort := rfl
@[simp] theorem State.appendRx_rxq (bs : List Byte) : (s.appendRx bs).rxq = s.rxq ++ bs := rfl
@[simp] theorem State.appendRx_transportUp (bs : List Byte) : (s.appendRx bs).transportUp = s.transportUp := rfl
@[simp] theorem State.appendRx_draws (bs : List Byte) : (s.appendRx bs).draws = s.draws := rfl
@[simp] theorem State.appendRx_drawCount (bs : List Byte) : (s.appendRx bs).drawCount = s.drawCount := rfl
@[simp] theorem State.appendRx_script (bs : List Byte) : (s.appendRx bs).script = s.script := rfl
@[simp] theorem State.appendRx_busData (bs : List Byte) : (s.appendRx bs).busData = s.busData := rfl
@[simp] theorem State.appendRx_blockBase (bs : List Byte) : (s.appendRx bs).blockBase = s.blockBase := rfl
@[simp] theorem State.appendRx_params (bs : List Byte) : (s.appendRx bs).params = s.params := rfl

/-! ### `State.loseTransport` -/

@[simp] theorem State.loseTransport_buf : (s.loseTransport).buf = s.buf := rfl
@[simp] theorem State.loseTransport_bufLen : (s.loseTransport).bufLen = s.bufLen := rfl
@[simp] theorem State.loseTransport_sync : (s.loseTransport).sync = s.sync := rfl
@[simp] theorem State.loseTransport_cur : (s.loseTransport).cur = s.cur := rfl
@[simp] theorem State.loseTransport_scanFrom : (s.loseTransport).scanFrom = s.scanFrom := rfl
@[simp] theorem State.loseTransport_pub : (s.loseTransport).pub = s.pub := rfl
@[simp] theorem State.loseTransport_pubValid : (s.loseTransport).pubValid = s.pubValid := rfl
@[simp] theorem State.loseTransport_view : (s.loseTransport).view = s.view := rfl
@[simp] theorem State.loseTransport_viewValid : (s.loseTransport).viewValid = s.viewValid := rfl
@[simp] theorem State.loseTransport_viewSeqn : (s.loseTransport).viewSeqn = s.viewSeqn := rfl
@[simp] theorem State.loseTransport_run : (s.loseTransport).run = s.run := rfl
@[simp] theorem State.loseTransport_running : (s.loseTransport).running = s.running := rfl
@[simp] theorem State.loseTransport_frameCnt : (s.loseTransport).frameCnt = s.frameCnt := rfl
@[simp] theorem State.loseTransport_spuriousCnt : (s.loseTransport).spuriousCnt = s.spuriousCnt := rfl
@[simp] theorem State.loseTransport_shortCnt : (s.loseTransport).shortCnt = s.shortCnt := rfl
@[simp] theorem State.loseTransport_result : (s.loseTransport).result = s.result := rfl
@[simp] theorem State.loseTransport_errBusy : (s.loseTransport).errBusy = s.errBusy := rfl
@[simp] theorem State.loseTransport_errIllegal : (s.loseTransport).errIllegal = s.errIllegal := rfl
@[simp] theorem State.loseTransport_errBounds : (s.loseTransport).errBounds = s.errBounds := rfl
@[simp] theorem State.loseTransport_errShort : (s.loseTransport).errShort = s.errShort := rfl
@[simp] theorem State.loseTransport_rxq : (s.loseTransport).rxq = s.rxq := rfl
@[simp] theorem State.loseTransport_transportUp : (s.loseTransport).transportUp = false := rfl
@[simp] theorem State.loseTransport_draws : (s.loseTransport).draws = s.draws := rfl
@[simp] theorem State.loseTransport_drawCount : (s.loseTransport).drawCount = s.drawCount := rfl
@[simp] theorem State.loseTransport_script : (s.loseTransport).script = s.script := rfl
@[simp] theorem State.loseTransport_busData : (s.loseTransport).busData = s.busData := rfl
@[simp] theorem State.loseTransport_blockBase : (s.loseTransport).blockBase = s.blockBase := rfl
@[simp] theorem State.loseTransport_params : (s.loseTransport).params = s.params := rfl

/-! ### `State.setBusData` -/

@[simp] theorem State.setBusData_buf (w : Word) : (s.setBusData w).buf = s.buf := rfl
@[simp] theorem State.setBusData_bufLen (w : Word) : (s.setBusData w).bufLen = s.bufLen := rfl
@[simp] theorem State.setBusData_sync (w : Word) : (s.setBusData w).sync = s.sync := rfl
@[simp] theorem State.setBusData_cur (w : Word) : (s.setBusData w).cur = s.cur := rfl
@[simp] theorem State.setBusData_scanFrom (w : Word) : (s.setBusData w).scanFrom = s.scanFrom := rfl
@[simp] theorem State.setBusData_pub (w : Word) : (s.setBusData w).pub = s.pub := rfl
@[simp] theorem State.setBusData_pubValid (w : Word) : (s.setBusData w).pubValid = s.pubValid := rfl
@[simp] theorem State.setBusData_view (w : Word) : (s.setBusData w).view = s.view := rfl
@[simp] theorem State.setBusData_viewValid (w : Word) : (s.setBusData w).viewValid = s.viewValid := rfl
@[simp] theorem State.setBusData_viewSeqn (w : Word) : (s.setBusData w).viewSeqn = s.viewSeqn := rfl
@[simp] theorem State.setBusData_run (w : Word) : (s.setBusData w).run = s.run := rfl
@[simp] theorem State.setBusData_running (w : Word) : (s.setBusData w).running = s.running := rfl
@[simp] theorem State.setBusData_frameCnt (w : Word) : (s.setBusData w).frameCnt = s.frameCnt := rfl
@[simp] theorem State.setBusData_spuriousCnt (w : Word) : (s.setBusData w).spuriousCnt = s.spuriousCnt := rfl
@[simp] theorem State.setBusData_shortCnt (w : Word) : (s.setBusData w).shortCnt = s.shortCnt := rfl
@[simp] theorem State.setBusData_result (w : Word) : (s.setBusData w).result = s.result := rfl
@[simp] theorem State.setBusData_errBusy (w : Word) : (s.setBusData w).errBusy = s.errBusy := rfl
@[simp] theorem State.setBusData_errIllegal (w : Word) : (s.setBusData w).errIllegal = s.errIllegal := rfl
@[simp] theorem State.setBusData_errBounds (w : Word) : (s.setBusData w).errBounds = s.errBounds := rfl
@[simp] theorem State.setBusData_errShort (w : Word) : (s.setBusData w).errShort = s.errShort := rfl
@[simp] theorem State.setBusData_rxq (w : Word) : (s.setBusData w).rxq = s.rxq := rfl
@[simp] theorem State.setBusData_transportUp (w : Word) : (s.setBusData w).transportUp = s.transportUp := rfl
@[simp] theorem State.setBusData_draws (w : Word) : (s.setBusData w).draws = s.draws := rfl
@[simp] theorem State.setBusData_drawCount (w : Word) : (s.setBusData w).drawCount = s.drawCount := rfl
@[simp] theorem State.setBusData_script (w : Word) : (s.setBusData w).script = s.script := rfl
@[simp] theorem State.setBusData_busData (w : Word) : (s.setBusData w).busData = w := rfl
@[simp] theorem State.setBusData_blockBase (w : Word) : (s.setBusData w).blockBase = s.blockBase := rfl
@[simp] theorem State.setBusData_params (w : Word) : (s.setBusData w).params = s.params := rfl

/-! ### `State.setScript` -/

@[simp] theorem State.setScript_buf (es : List Event) : (s.setScript es).buf = s.buf := rfl
@[simp] theorem State.setScript_bufLen (es : List Event) : (s.setScript es).bufLen = s.bufLen := rfl
@[simp] theorem State.setScript_sync (es : List Event) : (s.setScript es).sync = s.sync := rfl
@[simp] theorem State.setScript_cur (es : List Event) : (s.setScript es).cur = s.cur := rfl
@[simp] theorem State.setScript_scanFrom (es : List Event) : (s.setScript es).scanFrom = s.scanFrom := rfl
@[simp] theorem State.setScript_pub (es : List Event) : (s.setScript es).pub = s.pub := rfl
@[simp] theorem State.setScript_pubValid (es : List Event) : (s.setScript es).pubValid = s.pubValid := rfl
@[simp] theorem State.setScript_view (es : List Event) : (s.setScript es).view = s.view := rfl
@[simp] theorem State.setScript_viewValid (es : List Event) : (s.setScript es).viewValid = s.viewValid := rfl
@[simp] theorem State.setScript_viewSeqn (es : List Event) : (s.setScript es).viewSeqn = s.viewSeqn := rfl
@[simp] theorem State.setScript_run (es : List Event) : (s.setScript es).run = s.run := rfl
@[simp] theorem State.setScript_running (es : List Event) : (s.setScript es).running = s.running := rfl
@[simp] theorem State.setScript_frameCnt (es : List Event) : (s.setScript es).frameCnt = s.frameCnt := rfl
@[simp] theorem State.setScript_spuriousCnt (es : List Event) : (s.setScript es).spuriousCnt = s.spuriousCnt := rfl
@[simp] theorem State.setScript_shortCnt (es : List Event) : (s.setScript es).shortCnt = s.shortCnt := rfl
@[simp] theorem State.setScript_result (es : List Event) : (s.setScript es).result = s.result := rfl
@[simp] theorem State.setScript_errBusy (es : List Event) : (s.setScript es).errBusy = s.errBusy := rfl
@[simp] theorem State.setScript_errIllegal (es : List Event) : (s.setScript es).errIllegal = s.errIllegal := rfl
@[simp] theorem State.setScript_errBounds (es : List Event) : (s.setScript es).errBounds = s.errBounds := rfl
@[simp] theorem State.setScript_errShort (es : List Event) : (s.setScript es).errShort = s.errShort := rfl
@[simp] theorem State.setScript_rxq (es : List Event) : (s.setScript es).rxq = s.rxq := rfl
@[simp] theorem State.setScript_transportUp (es : List Event) : (s.setScript es).transportUp = s.transportUp := rfl
@[simp] theorem State.setScript_draws (es : List Event) : (s.setScript es).draws = s.draws := rfl
@[simp] theorem State.setScript_drawCount (es : List Event) : (s.setScript es).drawCount = s.drawCount := rfl
@[simp] theorem State.setScript_script (es : List Event) : (s.setScript es).script = es := rfl
@[simp] theorem State.setScript_busData (es : List Event) : (s.setScript es).busData = s.busData := rfl
@[simp] theorem State.setScript_blockBase (es : List Event) : (s.setScript es).blockBase = s.blockBase := rfl
@[simp] theorem State.setScript_params (es : List Event) : (s.setScript es).params = s.params := rfl

/-! ### `State.raise` -/

@[simp] theorem State.raise_buf (e : ErrorBit) : (s.raise e).buf = s.buf := by cases e <;> rfl
@[simp] theorem State.raise_bufLen (e : ErrorBit) : (s.raise e).bufLen = s.bufLen := by cases e <;> rfl
@[simp] theorem State.raise_sync (e : ErrorBit) : (s.raise e).sync = s.sync := by cases e <;> rfl
@[simp] theorem State.raise_cur (e : ErrorBit) : (s.raise e).cur = s.cur := by cases e <;> rfl
@[simp] theorem State.raise_scanFrom (e : ErrorBit) : (s.raise e).scanFrom = s.scanFrom := by cases e <;> rfl
@[simp] theorem State.raise_pub (e : ErrorBit) : (s.raise e).pub = s.pub := by cases e <;> rfl
@[simp] theorem State.raise_pubValid (e : ErrorBit) : (s.raise e).pubValid = s.pubValid := by cases e <;> rfl
@[simp] theorem State.raise_view (e : ErrorBit) : (s.raise e).view = s.view := by cases e <;> rfl
@[simp] theorem State.raise_viewValid (e : ErrorBit) : (s.raise e).viewValid = s.viewValid := by cases e <;> rfl
@[simp] theorem State.raise_viewSeqn (e : ErrorBit) : (s.raise e).viewSeqn = s.viewSeqn := by cases e <;> rfl
@[simp] theorem State.raise_run (e : ErrorBit) : (s.raise e).run = s.run := by cases e <;> rfl
@[simp] theorem State.raise_running (e : ErrorBit) : (s.raise e).running = s.running := by cases e <;> rfl
@[simp] theorem State.raise_frameCnt (e : ErrorBit) : (s.raise e).frameCnt = s.frameCnt := by cases e <;> rfl
@[simp] theorem State.raise_spuriousCnt (e : ErrorBit) : (s.raise e).spuriousCnt = s.spuriousCnt := by cases e <;> rfl
@[simp] theorem State.raise_shortCnt (e : ErrorBit) : (s.raise e).shortCnt = s.shortCnt := by cases e <;> rfl
@[simp] theorem State.raise_result (e : ErrorBit) : (s.raise e).result = s.result := by cases e <;> rfl
@[simp] theorem State.raise_errBusy (e : ErrorBit) : (s.raise e).errBusy = (s.errBusy || (e == .busy)) := by cases e <;> simp [State.raise]
@[simp] theorem State.raise_errIllegal (e : ErrorBit) : (s.raise e).errIllegal = (s.errIllegal || (e == .illegal)) := by cases e <;> simp [State.raise]
@[simp] theorem State.raise_errBounds (e : ErrorBit) : (s.raise e).errBounds = (s.errBounds || (e == .bounds)) := by cases e <;> simp [State.raise]
@[simp] theorem State.raise_errShort (e : ErrorBit) : (s.raise e).errShort = (s.errShort || (e == .short)) := by cases e <;> simp [State.raise]
@[simp] theorem State.raise_rxq (e : ErrorBit) : (s.raise e).rxq = s.rxq := by cases e <;> rfl
@[simp] theorem State.raise_transportUp (e : ErrorBit) : (s.raise e).transportUp = s.transportUp := by cases e <;> rfl
@[simp] theorem State.raise_draws (e : ErrorBit) : (s.raise e).draws = s.draws := by cases e <;> rfl
@[simp] theorem State.raise_drawCount (e : ErrorBit) : (s.raise e).drawCount = s.drawCount := by cases e <;> rfl
@[simp] theorem State.raise_script (e : ErrorBit) : (s.raise e).script = s.script := by cases e <;> rfl
@[simp] theorem State.raise_busData (e : ErrorBit) : (s.raise e).busData = s.busData := by cases e <;> rfl
@[simp] theorem State.raise_blockBase (e : ErrorBit) : (s.raise e).blockBase = s.blockBase := by cases e <;> rfl
@[simp] theorem State.raise_params (e : ErrorBit) : (s.raise e).params = s.params := by cases e <;> rfl

/-! ### `State.applyReset`, the fields of the environment and of the interface -/

@[simp] theorem State.applyReset_buf : s.applyReset.buf = State.reset.buf := rfl
@[simp] theorem State.applyReset_bufLen : s.applyReset.bufLen = State.reset.bufLen := rfl
@[simp] theorem State.applyReset_sync : s.applyReset.sync = State.reset.sync := rfl
@[simp] theorem State.applyReset_cur : s.applyReset.cur = State.reset.cur := rfl
@[simp] theorem State.applyReset_scanFrom : s.applyReset.scanFrom = State.reset.scanFrom := rfl
@[simp] theorem State.applyReset_pub : s.applyReset.pub = State.reset.pub := rfl
@[simp] theorem State.applyReset_pubValid : s.applyReset.pubValid = State.reset.pubValid := rfl
@[simp] theorem State.applyReset_view : s.applyReset.view = State.reset.view := rfl
@[simp] theorem State.applyReset_viewValid : s.applyReset.viewValid = State.reset.viewValid := rfl
@[simp] theorem State.applyReset_viewSeqn : s.applyReset.viewSeqn = State.reset.viewSeqn := rfl
@[simp] theorem State.applyReset_run : s.applyReset.run = State.reset.run := rfl
@[simp] theorem State.applyReset_running : s.applyReset.running = State.reset.running := rfl
@[simp] theorem State.applyReset_frameCnt : s.applyReset.frameCnt = State.reset.frameCnt := rfl
@[simp] theorem State.applyReset_spuriousCnt : s.applyReset.spuriousCnt = State.reset.spuriousCnt := rfl
@[simp] theorem State.applyReset_shortCnt : s.applyReset.shortCnt = State.reset.shortCnt := rfl
@[simp] theorem State.applyReset_result : s.applyReset.result = State.reset.result := rfl
@[simp] theorem State.applyReset_errBusy : s.applyReset.errBusy = State.reset.errBusy := rfl
@[simp] theorem State.applyReset_errIllegal : s.applyReset.errIllegal = State.reset.errIllegal := rfl
@[simp] theorem State.applyReset_errBounds : s.applyReset.errBounds = State.reset.errBounds := rfl
@[simp] theorem State.applyReset_errShort : s.applyReset.errShort = State.reset.errShort := rfl
@[simp] theorem State.applyReset_rxq : s.applyReset.rxq = s.rxq := rfl
@[simp] theorem State.applyReset_transportUp : s.applyReset.transportUp = s.transportUp := rfl
@[simp] theorem State.applyReset_draws : s.applyReset.draws = s.draws := rfl
@[simp] theorem State.applyReset_drawCount : s.applyReset.drawCount = s.drawCount := rfl
@[simp] theorem State.applyReset_script : s.applyReset.script = s.script := rfl
@[simp] theorem State.applyReset_busData : s.applyReset.busData = s.busData := rfl
@[simp] theorem State.applyReset_blockBase : s.applyReset.blockBase = s.blockBase := rfl
@[simp] theorem State.applyReset_params : s.applyReset.params = s.params := rfl

end Sys2Proof.Machine
end

