-- ==== Sys2Proof/Laws/Memory.lean ====
section
/-! SUPPORT. The reassembly buffer: what a read returns after the buffer was set, and the canonical form kept by every
operation on it. -/

namespace Sys2Proof.Machine

theorem Memory.read_ofBytesFrom_of_lt (bytes : List Byte) :
    ∀ i a, a < i → Memory.read (Memory.ofBytesFrom i bytes) a = Memory.unlisted := by
  induction bytes with
  | nil => intro i a _; rfl
  | cons b rest ih =>
    intro i a h
    simp only [Memory.ofBytesFrom]
    split
    · exact ih (i + 1) a (by omega)
    · simp only [Memory.read]
      rw [if_neg (by omega)]
      exact ih (i + 1) a (by omega)

theorem Memory.read_ofBytesFrom (bytes : List Byte) :
    ∀ i a, Memory.read (Memory.ofBytesFrom i bytes) (i + a) = bytes.getD a Memory.unlisted := by
  induction bytes with
  | nil => intro i a; simp [Memory.ofBytesFrom, Memory.read]
  | cons b rest ih =>
    intro i a
    simp only [Memory.ofBytesFrom]
    cases a with
    | zero =>
      split
      · next h =>
        simpa [h] using Memory.read_ofBytesFrom_of_lt rest (i + 1) i (by omega)
      · simp [Memory.read]
    | succ a =>
      have key := ih (i + 1) a
      rw [show i + 1 + a = i + (a + 1) by omega] at key
      split
      · simpa using key
      · simp only [Memory.read]
        rw [if_neg (by omega)]
        simpa using key

/-- A byte of a buffer set to `bytes`. -/
@[simp] theorem Memory.read_ofBytes (bytes : List Byte) (a : Nat) :
    Memory.read (Memory.ofBytes bytes) a = bytes.getD a Memory.unlisted := by
  simpa [Memory.ofBytes] using Memory.read_ofBytesFrom bytes 0 a

theorem Memory.wfFrom_mono (m : List Host.Cell) {lo lo' : Nat} (h : lo' ≤ lo) (hm : Memory.wfFrom lo m = true) :
    Memory.wfFrom lo' m = true := by
  cases m with
  | nil => rfl
  | cons c rest =>
    simp only [Memory.wfFrom, Bool.and_eq_true, decide_eq_true_eq] at hm ⊢
    exact ⟨⟨by omega, hm.1.2⟩, hm.2⟩

theorem Memory.wfFrom_ofBytesFrom (bytes : List Byte) :
    ∀ i, Memory.wfFrom i (Memory.ofBytesFrom i bytes) = true := by
  induction bytes with
  | nil => intro i; rfl
  | cons b rest ih =>
    intro i
    simp only [Memory.ofBytesFrom]
    split
    · exact Memory.wfFrom_mono _ (Nat.le_succ i) (ih (i + 1))
    · next h => simp [Memory.wfFrom, h, ih (i + 1)]

/-- Setting the buffer keeps the canonical form. -/
@[simp] theorem Memory.wf_ofBytes (bytes : List Byte) : Memory.wf (Memory.ofBytes bytes) = true :=
  Memory.wfFrom_ofBytesFrom bytes 0

/-- The empty buffer is in canonical form: `State.reset`'s is. -/
@[simp] theorem Memory.wf_nil : Memory.wf [] = true := rfl

theorem State.reset_wf : Memory.wf State.reset.buf = true := rfl

theorem Memory.index_ofBytesFrom (bytes : List Byte) :
    ∀ i, ∀ c ∈ Memory.ofBytesFrom i bytes, c.1 < i + bytes.length := by
  induction bytes with
  | nil => intro i c h; simp [Memory.ofBytesFrom] at h
  | cons b rest ih =>
    intro i c h
    simp only [Memory.ofBytesFrom] at h
    split at h
    · have := ih (i + 1) c h
      simp only [List.length_cons]; omega
    · rcases List.mem_cons.mp h with rfl | h
      · simp
      · have := ih (i + 1) c h
        simp only [List.length_cons]; omega

/-- Setting the buffer lists no cell at or beyond the new `BUF_LEN`. -/
theorem Memory.index_ofBytes (bytes : List Byte) : ∀ c ∈ Memory.ofBytes bytes, c.1 < bytes.length := by
  intro c h
  simpa using Memory.index_ofBytesFrom bytes 0 c h

/-! ### `BUF[0:BUF_LEN]` -/

@[simp] theorem State.bytes_length (s : State) : s.bytes.length = s.bufLen := by simp [State.bytes]

theorem State.bytes_getElem? (s : State) (a : Nat) :
    s.bytes[a]? = if a < s.bufLen then some (Memory.read s.buf a) else none := by
  by_cases h : a < s.bufLen <;> simp [State.bytes, h]

/-- The valid bytes depend on `BUF` and `BUF_LEN` only. -/
theorem State.bytes_congr {s t : State} (hb : s.buf = t.buf) (hl : s.bufLen = t.bufLen) : s.bytes = t.bytes := by
  simp [State.bytes, hb, hl]

/-- After the buffer is set, its valid bytes are those it was set to. -/
@[simp] theorem State.setBuffer_bytes (s : State) (bytes : List Byte) : (s.setBuffer bytes).bytes = bytes := by
  apply List.ext_getElem?
  intro a
  rw [State.bytes_getElem?]
  by_cases h : a < bytes.length <;> simp [h]

@[simp] theorem State.setPosition_bytes (s : State) (y : Sync) (c f : Nat) : (s.setPosition y c f).bytes = s.bytes := rfl
@[simp] theorem State.setResult_bytes (s : State) (w : Word) : (s.setResult w).bytes = s.bytes := rfl
@[simp] theorem State.addSpurious_bytes (s : State) (n : Nat) : (s.addSpurious n).bytes = s.bytes := rfl
@[simp] theorem State.countShort_bytes (s : State) : s.countShort.bytes = s.bytes := rfl
@[simp] theorem State.publish_bytes (s : State) (p : Sample) : (s.publish p).bytes = s.bytes := rfl
@[simp] theorem State.afterRead_bytes (s : State) (n : Nat) : (s.afterRead n).bytes = s.bytes := rfl
@[simp] theorem State.setScript_bytes (s : State) (es : List Event) : (s.setScript es).bytes = s.bytes := rfl
@[simp] theorem State.raise_bytes (s : State) (e : ErrorBit) : (s.raise e).bytes = s.bytes := by cases e <;> rfl

/-! ### The bytes an ingest keeps and reads -/

theorem retained_length (s : State) :
    (retained s).length =
      match s.sync with
      | .empty => 0
      | .locked => s.bufLen - s.cur.toNat
      | .hunt => s.bufLen - s.scanFrom.toNat := by
  unfold retained
  cases s.sync <;> simp

theorem readCount_le (n : Nat) (s : State) : readCount n s ≤ n ∧ readCount n s ≤ s.rxq.length := by
  simp only [readCount]; omega

@[simp] theorem readBytes_length (n : Nat) (s : State) : (readBytes n s).length = readCount n s := by
  have := readCount_le n s
  simp only [readBytes, List.length_take]; omega

end Sys2Proof.Machine
end

