-- ==== Sys2Proof/Laws/Scan.lean ====
section
/-! SUPPORT. `Scan`, one index at a time: the equations of its loop, and where its answer can stand. -/

namespace Sys2Proof.Machine

@[simp] theorem scanSuffix_nil (p : Params) (t s : Nat) : scanSuffix p t s [] = (.none, s) := rfl

/-- The spurious count only accumulates. -/
theorem scanSuffix_count (p : Params) (suffix : List Byte) :
    ∀ t s, scanSuffix p t s suffix = ((scanSuffix p t 0 suffix).1, (scanSuffix p t 0 suffix).2 + s) := by
  induction suffix with
  | nil => intro t s; simp
  | cons b rest ih =>
    intro t s
    simp only [scanSuffix]
    split
    · split
      · simp
      · split
        · simp
        · split
          · simp
          · rw [ih (t + 1) (s + 1), ih (t + 1) (0 + 1)]; simp; omega
    · exact ih (t + 1) s

/-- `Scan` from an index at or beyond the end. -/
theorem scan_of_length_le {p : Params} {S : List Byte} {i : Nat} (h : S.length ≤ i) : scan p S i = (.none, 0) := by
  simp [scan, List.drop_eq_nil_of_le h]

/-- The suffix at an index that exists. -/
theorem drop_eq_cons {S : List Byte} {i : Nat} {b : Byte} (h : S[i]? = some b) : S.drop i = b :: S.drop (i + 1) := by
  obtain ⟨hi, rfl⟩ := List.getElem?_eq_some_iff.mp h
  exact List.drop_eq_getElem_cons hi

/-- No marker at `i`: the scan goes on at `i + 1`. -/
theorem scan_of_not_marker {p : Params} {S : List Byte} {i : Nat} (h : markerAt p S i = false) : scan p S i = scan p S (i + 1) := by
  cases hb : S[i]? with
  | none =>
    have hi : S.length ≤ i := List.getElem?_eq_none_iff.mp hb
    rw [scan_of_length_le hi, scan_of_length_le (by omega)]
  | some b =>
    have hm : b ≠ p.marker := by
      intro e; simp [markerAt, hb, e] at h
    simp only [scan, drop_eq_cons hb, scanSuffix, if_neg hm]

/-- A marker at `i` without a length byte. -/
theorem scan_of_no_length {p : Params} {S : List Byte} {i : Nat} (h : markerAt p S i = true) (hl : S[i + p.lenOff]? = none) :
    scan p S i = (.incomplete i, 0) := by
  have hb : S[i]? = some p.marker := by simpa [markerAt] using h
  have : (S.drop i)[p.lenOff]? = none := by simpa using hl
  rw [drop_eq_cons hb] at this
  simp only [scan, drop_eq_cons hb, scanSuffix, this, if_true]

/-- A marker at `i` with the length byte `len`: the three cases of its terminator byte (40_synchronizer.md R65). -/
theorem scan_of_length {p : Params} {S : List Byte} {i : Nat} {len : Byte} (h : markerAt p S i = true)
    (hl : S[i + p.lenOff]? = some len) :
    scan p S i =
      match S[i + len.toNat]? with
      | none => (.incomplete i, 0)
      | some e => if e = p.term then (.found i, 0) else ((scan p S (i + 1)).1, (scan p S (i + 1)).2 + 1) := by
  have hb : S[i]? = some p.marker := by simpa [markerAt] using h
  have h1 : (S.drop i)[p.lenOff]? = some len := by simpa using hl
  have h2 : (S.drop i)[len.toNat]? = S[i + len.toNat]? := by simp
  rw [drop_eq_cons hb] at h1 h2
  simp only [scan, drop_eq_cons hb, scanSuffix, h1, h2, if_true]
  cases S[i + len.toNat]? with
  | none => rfl
  | some e =>
    simp only
    split
    · rfl
    · rw [scanSuffix_count]

/-- What `Scan` says of index `i` and of the rest: the whole of one turn of its loop. -/
theorem scan_cases (p : Params) (S : List Byte) (i : Nat) :
    (S.length ≤ i ∧ scan p S i = (.none, 0)) ∨
    (i < S.length ∧ markerAt p S i = false ∧ scan p S i = scan p S (i + 1)) ∨
    (i < S.length ∧ incompleteAt p S i = true ∧ scan p S i = (.incomplete i, 0)) ∨
    (i < S.length ∧ validStart p S i = true ∧ scan p S i = (.found i, 0)) ∨
    (i < S.length ∧ spuriousAt p S i = true ∧ scan p S i = ((scan p S (i + 1)).1, (scan p S (i + 1)).2 + 1)) := by
  by_cases hn : S.length ≤ i
  · exact .inl ⟨hn, scan_of_length_le hn⟩
  · have hi : i < S.length := by omega
    refine .inr ?_
    cases hm : markerAt p S i with
    | false => exact .inl ⟨hi, rfl, scan_of_not_marker hm⟩
    | true =>
      refine .inr ?_
      cases hl : S[i + p.lenOff]? with
      | none => exact .inl ⟨hi, by simp [incompleteAt, hm, hl], scan_of_no_length hm hl⟩
      | some len =>
        have h := scan_of_length hm hl
        cases he : S[i + len.toNat]? with
        | none =>
          rw [he] at h
          have hlen : S.length ≤ i + len.toNat := List.getElem?_eq_none_iff.mp he
          exact .inl ⟨hi, by simp [incompleteAt, hm, hl, hlen], h⟩
        | some e =>
          rw [he] at h
          simp only at h
          have hlt : i + len.toNat < S.length := (List.getElem?_eq_some_iff.mp he).1
          by_cases ht : e = p.term
          · rw [if_pos ht] at h
            exact .inr (.inl ⟨hi, by simp [validStart, hm, hl, he, ht], h⟩)
          · rw [if_neg ht] at h
            exact .inr (.inr ⟨hi, by simp only [spuriousAt, hm, hl, he]; simp [hlt, ht], h⟩)

/-- Scanning the suffix from `i` on is scanning from `i`, with the indices moved. -/
theorem validStart_drop (p : Params) (S : List Byte) (i t : Nat) : validStart p (S.drop i) t = validStart p S (i + t) := by
  simp [validStart, markerAt, Nat.add_assoc]

end Sys2Proof.Machine
end

