-- ==== Sys2Proof/Laws/Frame.lean ====
section
/-! SUPPORT. The frame buffer's operations: everything `Ingest`, `Advance` and `NextCore` can do. -/

namespace Sys2Proof.Machine

/-! ### The guards -/

@[simp] theorem whenStopped_of_running {s : State} (h : s.running = true) (act : State → StepResult) :
    whenStopped s act = .next (s.raise .busy) := by simp [whenStopped, h]

@[simp] theorem whenStopped_of_stopped {s : State} (h : s.running = false) (act : State → StepResult) :
    whenStopped s act = act s := by simp [whenStopped, h]

/-- Everything a guarded command can do. -/
theorem whenStopped_cases {s s' : State} {act : State → StepResult} (h : whenStopped s act = .next s') :
    (s.running = true ∧ s' = s.raise .busy) ∨ (s.running = false ∧ act s = .next s') := by
  cases hr : s.running with
  | true => rw [whenStopped_of_running hr] at h; cases h; exact .inl ⟨rfl, rfl⟩
  | false => rw [whenStopped_of_stopped hr] at h; exact .inr ⟨rfl, h⟩

/-- Everything an extract command can do. -/
theorem extract_cases {s s' : State} {idx w : Nat} {value : State → Word} (h : extract idx w value s = .next s') :
    (s.running = true ∧ s' = s.raise .busy) ∨
    (s.running = false ∧ idx + w ≤ s.bufLen ∧ s' = s.setResult (value s)) ∨
    (s.running = false ∧ s.bufLen < idx + w ∧ s' = (s.raise .bounds).setResult 0) := by
  rcases whenStopped_cases h with h | ⟨hr, h⟩
  · exact .inl h
  · simp only [inBounds, decide_eq_true_eq] at h
    split at h <;> cases h
    · next hb => exact .inr (.inl ⟨hr, hb, rfl⟩)
    · next hb => exact .inr (.inr ⟨hr, by omega, rfl⟩)

/-- The slack check (41_frame_buffer.md R76) in terms of the length byte in the buffer. -/
theorem tooCloseToTail_iff (s : State) :
    tooCloseToTail s = true ↔
      s.bufLen < s.cur.toNat + (Memory.read s.buf (s.cur.toNat + s.params.lenOff)).toNat + s.params.slack := by
  rw [tooCloseToTail, decide_eq_true_iff]
  rfl

theorem not_tooCloseToTail_iff (s : State) :
    tooCloseToTail s = false ↔
      s.cur.toNat + (Memory.read s.buf (s.cur.toNat + s.params.lenOff)).toNat + s.params.slack ≤ s.bufLen := by
  rw [← Bool.not_eq_true, tooCloseToTail_iff]
  omega

/-! ### The counters -/

/-- An event counter of at most 32 bits counts exactly modulo 2^`CNT_W` (60_exceptions.md R118). -/
theorem counterAfter_toNat {p : Params} (h : p.cntW ≤ 32) (c : Word) (n : Nat) :
    (counterAfter p c n).toNat = (c.toNat + n) % 2 ^ p.cntW := by
  have hlt : (c.toNat + n) % 2 ^ p.cntW < 2 ^ 32 :=
    Nat.lt_of_lt_of_le (Nat.mod_lt _ (Nat.two_pow_pos _)) (Nat.pow_le_pow_right (by omega) h)
  rw [counterAfter, BitVec.toNat_ofNat, Nat.mod_eq_of_lt hlt]

/-- With this hardware's `CNT_W` = 32 it is the sum of 32-bit words. -/
theorem counterAfter_hardware (c : Word) (n : Nat) : counterAfter Config.hardware c n = c + BitVec.ofNat 32 n := by
  apply BitVec.eq_of_toNat_eq
  rw [counterAfter_toNat (by decide)]
  simp [Config.hardware]

/-! ### Decode -/

/-- Every field of a decoded frame (42_decoder.md R93): its offset and form decide it. -/
@[simp] theorem decodeFrame_get (s : State) (c : Nat) (f : Field) :
    (decodeFrame s c).get f = formValue (fieldForm f) s (c + fieldOffset s.params f) := by
  cases f <;> rfl

/-! ### Advance and Ingest -/

/-- Everything `Advance` can do (41_frame_buffer.md R78). -/
theorem advance_cases (start : Nat) (s : State) :
    (∃ t n, scan s.params s.bytes start = (.found t, n) ∧
      advance start s = (s.addSpurious n).setPosition s.sync t s.scanFrom.toNat) ∨
    (∃ t n, scan s.params s.bytes start = (.incomplete t, n) ∧
      advance start s = (s.addSpurious n).setPosition .hunt 0 t) ∨
    (∃ n, scan s.params s.bytes start = (.none, n) ∧
      advance start s = (s.addSpurious n).setPosition .hunt 0 s.bufLen) := by
  unfold advance
  rcases scan s.params s.bytes start with ⟨_ | _ | _, n⟩
  · exact .inl ⟨_, _, rfl, rfl⟩
  · exact .inr (.inl ⟨_, _, rfl, rfl⟩)
  · exact .inr (.inr ⟨_, rfl, rfl⟩)

theorem advance_of_found {start t n : Nat} {s : State} (h : scan s.params s.bytes start = (.found t, n)) :
    advance start s = (s.addSpurious n).setPosition s.sync t s.scanFrom.toNat := by simp only [advance, h]

theorem advance_of_incomplete {start t n : Nat} {s : State} (h : scan s.params s.bytes start = (.incomplete t, n)) :
    advance start s = (s.addSpurious n).setPosition .hunt 0 t := by simp only [advance, h]

theorem advance_of_none {start n : Nat} {s : State} (h : scan s.params s.bytes start = (.none, n)) :
    advance start s = (s.addSpurious n).setPosition .hunt 0 s.bufLen := by simp only [advance, h]

/-- Everything the EMPTY case of `Ingest` can do (41_frame_buffer.md R73). -/
theorem ingestEmpty_cases (got : List Byte) (s : State) :
    (∃ t n, scan s.params got 0 = (.found t, n) ∧
      ingestEmpty got s = ((s.addSpurious n).setBuffer (got.drop t)).setPosition .locked 0 s.scanFrom.toNat) ∨
    (∃ n, ((∃ t, scan s.params got 0 = (.incomplete t, n)) ∨ scan s.params got 0 = (.none, n)) ∧
      ingestEmpty got s = (s.addSpurious n).setBuffer []) := by
  unfold ingestEmpty
  rcases h : scan s.params got 0 with ⟨_ | _ | _, n⟩
  · exact .inl ⟨_, _, rfl, rfl⟩
  · exact .inr ⟨_, .inl ⟨_, rfl⟩, rfl⟩
  · exact .inr ⟨_, .inr rfl, rfl⟩

/-- Everything the HUNT case of `Ingest` can do (41_frame_buffer.md R73). -/
theorem ingestHunt_cases (got : List Byte) (s : State) :
    (∃ t n, scan s.params (s.bytes.drop s.scanFrom.toNat ++ got) 0 = (.found t, n) ∧
      ingestHunt got s =
        ((s.addSpurious n).setBuffer ((s.bytes.drop s.scanFrom.toNat ++ got).drop t)).setPosition .locked 0 0) ∨
    (∃ t n, scan s.params (s.bytes.drop s.scanFrom.toNat ++ got) 0 = (.incomplete t, n) ∧
      ingestHunt got s =
        ((s.addSpurious n).setBuffer ((s.bytes.drop s.scanFrom.toNat ++ got).drop t)).setPosition
          .hunt s.cur.toNat 0) ∨
    (∃ n, scan s.params (s.bytes.drop s.scanFrom.toNat ++ got) 0 = (.none, n) ∧
      ingestHunt got s = ((s.addSpurious n).setBuffer []).setPosition .hunt s.cur.toNat 0) := by
  simp only [ingestHunt]
  rcases scan s.params (s.bytes.drop s.scanFrom.toNat ++ got) 0 with ⟨_ | _ | _, n⟩
  · exact .inl ⟨_, _, rfl, rfl⟩
  · exact .inr (.inl ⟨_, _, rfl, rfl⟩)
  · exact .inr (.inr ⟨_, rfl, rfl⟩)

theorem ingest_of_empty {s : State} (h : s.sync = .empty) (a : Nat) :
    ingest a s = ingestEmpty (readBytes (ingestRequest a s) s) (s.afterRead (ingestRequest a s)) := by
  simp [ingest, h]

theorem ingest_of_locked {s : State} (h : s.sync = .locked) (a : Nat) :
    ingest a s = ingestLocked (readBytes (ingestRequest a s) s) (s.afterRead (ingestRequest a s)) := by
  simp [ingest, h]

theorem ingest_of_hunt {s : State} (h : s.sync = .hunt) (a : Nat) :
    ingest a s = ingestHunt (readBytes (ingestRequest a s) s) (s.afterRead (ingestRequest a s)) := by
  simp [ingest, h]

/-! ### NextCore -/

/-- Everything `takeFrame` can do (41_frame_buffer.md R79, steps 3 to 6). -/
theorem takeFrame_cases (s : State) :
    (s.params.minFrame ≤ (frameLen s).toNat ∧
      takeFrame s = ⟨.sample, frameLen s,
        advance (s.cur.toNat + (frameLen s).toNat + 1) (s.publish (decodeFrame s s.cur.toNat))⟩) ∨
    ((frameLen s).toNat < s.params.minFrame ∧
      takeFrame s = ⟨.short, frameLen s,
        advance (s.cur.toNat + (frameLen s).toNat + 1) (s.raise .short).countShort⟩) := by
  by_cases h : s.params.minFrame ≤ (frameLen s).toNat
  · exact .inl ⟨h, by simp [takeFrame, h]⟩
  · exact .inr ⟨by omega, by simp [takeFrame, h]⟩

/-- Everything the check and ingest of `NextCore` can do (41_frame_buffer.md R79). -/
theorem refill_cases (s : State) (cont : State → FrameOutcome) :
    (s.transportUp = false ∧ refill s cont = .error .transportGone) ∨
    (s.transportUp = true ∧ s.rxq.length < s.params.slack ∧ refill s cont = .ok ⟨.noData, 0, s⟩) ∨
    (s.transportUp = true ∧ s.params.slack ≤ s.rxq.length ∧ refill s cont = .ok (cont (ingest s.rxq.length s))) := by
  cases hu : s.transportUp with
  | false => exact .inl ⟨rfl, by simp [refill, avail, hu]⟩
  | true =>
    by_cases hl : s.rxq.length < s.params.slack
    · exact .inr (.inl ⟨rfl, hl, by simp [refill, avail, hu, hl]⟩)
    · exact .inr (.inr ⟨rfl, by omega, by simp [refill, avail, hu, hl]⟩)

/-- Everything `NextCore` can do (41_frame_buffer.md R79): no data, a frame without an ingest, or an ingest followed by a
frame or by `NO_FRAME`. -/
theorem nextCore_cases {s : State} {o : FrameOutcome} (h : nextCore s = .ok o) :
    (s.transportUp = true ∧ s.rxq.length < s.params.slack ∧ (s.sync = .locked → tooCloseToTail s = true) ∧
      o = ⟨.noData, 0, s⟩) ∨
    (s.sync = .locked ∧ tooCloseToTail s = false ∧ o = takeFrame s) ∨
    (s.transportUp = true ∧ s.params.slack ≤ s.rxq.length ∧ s.sync = .locked ∧ tooCloseToTail s = true ∧
      o = takeFrame (ingest s.rxq.length s)) ∨
    (s.transportUp = true ∧ s.params.slack ≤ s.rxq.length ∧ s.sync ≠ .locked ∧
      o = takeIfLocked (ingest s.rxq.length s)) := by
  unfold nextCore at h
  cases hy : s.sync <;> simp only [hy] at h
  · rcases refill_cases s takeIfLocked with ⟨_, e⟩ | ⟨hu, hl, e⟩ | ⟨hu, hl, e⟩ <;> rw [e] at h <;> cases h
    · exact .inl ⟨hu, hl, by simp, rfl⟩
    · exact .inr (.inr (.inr ⟨hu, hl, by simp, rfl⟩))
  · cases ht : tooCloseToTail s <;> simp only [ht, if_true, if_false, Bool.false_eq_true] at h
    · cases h
      exact .inr (.inl ⟨rfl, rfl, rfl⟩)
    · rcases refill_cases s takeFrame with ⟨_, e⟩ | ⟨hu, hl, e⟩ | ⟨hu, hl, e⟩ <;> rw [e] at h <;> cases h
      · exact .inl ⟨hu, hl, by simp, rfl⟩
      · exact .inr (.inr (.inl ⟨hu, hl, rfl, rfl, rfl⟩))
  · rcases refill_cases s takeIfLocked with ⟨_, e⟩ | ⟨hu, hl, e⟩ | ⟨hu, hl, e⟩ <;> rw [e] at h <;> cases h
    · exact .inl ⟨hu, hl, by simp, rfl⟩
    · exact .inr (.inr (.inr ⟨hu, hl, by simp, rfl⟩))

/-- Everything `NEXT` can do (41_frame_buffer.md R80). -/
theorem execNext_cases {s s' : State} (h : execNext s = .next s') :
    (s.running = true ∧ s' = s.raise .busy) ∨
    (s.running = false ∧ ∃ o, nextCore s = .ok o ∧ s' = o.state.setResult (nextResult o.code o.len)) := by
  rcases whenStopped_cases h with h | ⟨hr, h⟩
  · exact .inl h
  · cases hc : nextCore s <;> rw [hc] at h <;> cases h
    exact .inr ⟨hr, _, rfl, rfl⟩

/-- Everything the Loop's turn can do (43_poller.md R104). -/
theorem loopTurn_cases {s s' : State} (h : loopTurn s = .next s') :
    (s.running = false ∧ s' = s) ∨
    (s.running = true ∧ s.transportUp = true ∧ s.run = false ∧ s' = s.exitLoop) ∨
    (s.running = true ∧ s.transportUp = true ∧ s.run = true ∧ ∃ o, nextCore s = .ok o ∧ s' = o.state) := by
  unfold loopTurn loopIter at h
  cases hr : s.running <;> cases hu : s.transportUp <;> cases hn : s.run <;> simp [hr, hu, hn] at h
  · exact .inl ⟨rfl, h.symm⟩
  · exact .inl ⟨rfl, h.symm⟩
  · exact .inl ⟨rfl, h.symm⟩
  · exact .inl ⟨rfl, h.symm⟩
  · exact .inr (.inl ⟨rfl, rfl, rfl, h.symm⟩)
  · cases hc : nextCore s <;> rw [hc] at h <;> cases h
    exact .inr (.inr ⟨rfl, rfl, rfl, _, rfl, rfl⟩)

end Sys2Proof.Machine
end

