-- ==== Sys2Proof/Laws/PerInstr.lean ====
section
/-! SUPPORT. A statement about every instruction, proved per instruction: its encoding is a word of its row of the opcode
table (30_encoding.md R58). -/

namespace Sys2Proof.Laws

/-- The `mask` of an instruction's row (30_encoding.md R58). -/
def rowMask (i : Instr) : Word :=
  match i with
  | .nop => 0xFFFFFFFF
  | .next => 0xFFFFFFFF
  | .find _ => 0x0000FFFF
  | .ext8u _ => 0x0000FFFF
  | .ext16u _ => 0x0000FFFF
  | .ext16s _ => 0x0000FFFF
  | .ext32s _ => 0x0000FFFF
  | .clear => 0xFFFFFFFF
  | .snap => 0x00000000

/-- The `match` of an instruction's row (30_encoding.md R58). -/
def rowMatch (i : Instr) : Word :=
  match i with
  | .nop => 0
  | .next => 1
  | .find _ => 2
  | .ext8u _ => 3
  | .ext16u _ => 4
  | .ext16s _ => 5
  | .ext32s _ => 6
  | .clear => 7
  | .snap => 0

/-- The low half of a command word is its opcode. -/
theorem cmdWord_and_low {op idx : Nat} (h : op < 16) : cmdWord op idx &&& 0x0000FFFF = BitVec.ofNat 32 op := by
  have hop : ∀ j, 4 ≤ j → op.testBit j = false := fun j hj =>
    Nat.testBit_lt_two_pow (lt_of_lt_of_le h (by simpa using Nat.pow_le_pow_right (n := 2) (by omega) hj))
  have hm : (0x0000FFFF : Word) = BitVec.ofNat 32 (2 ^ 16 - 1) := rfl
  apply BitVec.eq_of_getLsbD_eq
  intro i hi
  rw [hm]
  simp only [BitVec.getLsbD_and, getLsbD_cmdWord h, BitVec.getLsbD_ofNat, Nat.testBit_two_pow_sub_one]
  by_cases h4 : i < 4
  · simp [h4, hi, show i < 16 by omega]
  · by_cases h16 : i < 16
    · simp [h4, h16, hop i (by omega)]
    · simp [h4, h16, hop i (by omega)]

namespace EncodesItsRow

/-- The encoding of `i` goes to `CMD` (or to `SNAP`) and matches its row of the opcode table. -/
def Statement (i : Instr) : Prop :=
  (encode i).value &&& rowMask i = rowMatch i ∧ (encode i).offset = if i = .snap then 0x02C else 0x008

theorem nop : Statement .nop := by unfold Statement; decide
theorem next : Statement .next := by unfold Statement; decide
theorem find (idx : Nat) : Statement (.find idx) := ⟨cmdWord_and_low (by decide), rfl⟩
theorem ext8u (idx : Nat) : Statement (.ext8u idx) := ⟨cmdWord_and_low (by decide), rfl⟩
theorem ext16u (idx : Nat) : Statement (.ext16u idx) := ⟨cmdWord_and_low (by decide), rfl⟩
theorem ext16s (idx : Nat) : Statement (.ext16s idx) := ⟨cmdWord_and_low (by decide), rfl⟩
theorem ext32s (idx : Nat) : Statement (.ext32s idx) := ⟨cmdWord_and_low (by decide), rfl⟩
theorem clear : Statement .clear := by unfold Statement; decide
theorem snap : Statement .snap := by unfold Statement; decide

end EncodesItsRow

end Sys2Proof.Laws
end

