-- ==== Sys2Proof/Laws/Step.lean ====
section
/-! SUPPORT. Everything a step can do: the events, the host's accesses, and the arms of `exec`. -/

namespace Sys2Proof.Machine

/-! ### `exec`, arm by arm -/

@[simp] theorem exec_nop (s : State) : exec .nop s = execNop s := rfl
@[simp] theorem exec_next (s : State) : exec .next s = execNext s := rfl
@[simp] theorem exec_find (idx : Nat) (s : State) : exec (.find idx) s = execFind idx s := rfl
@[simp] theorem exec_ext8u (idx : Nat) (s : State) : exec (.ext8u idx) s = execExt8u idx s := rfl
@[simp] theorem exec_ext16u (idx : Nat) (s : State) : exec (.ext16u idx) s = execExt16u idx s := rfl
@[simp] theorem exec_ext16s (idx : Nat) (s : State) : exec (.ext16s idx) s = execExt16s idx s := rfl
@[simp] theorem exec_ext32s (idx : Nat) (s : State) : exec (.ext32s idx) s = execExt32s idx s := rfl
@[simp] theorem exec_clear (s : State) : exec .clear s = execClear s := rfl
@[simp] theorem exec_snap (s : State) : exec .snap s = execSnap s := rfl

/-! ### The host's accesses -/

/-- An access to a named register at its address is supported when the window stands at a multiple of 4. -/
theorem accessOffset_reg {s : State} (hb : s.blockBase % 4 = 0) {off : Nat} (h : off < 4096) (h4 : off % 4 = 0) :
    accessOffset (s.blockBase + off) 4 s = .ok off := by
  have hw : off < Config.windowSize := h
  have hm : (s.blockBase + off) % 4 = 0 := by omega
  simp [accessOffset, hw, hm]

/-- A host write to a named register at its address. -/
theorem hostWrite_reg {s : State} (hb : s.blockBase % 4 = 0) {off : Nat} (h : off < 4096) (h4 : off % 4 = 0)
    (v : Word) : hostWrite (s.blockBase + off) 4 v s = writeOffset off v s := by
  simp [hostWrite, accessOffset_reg hb h h4]

/-- A host read of a named register at its address. -/
theorem hostRead_reg {s : State} (hb : s.blockBase % 4 = 0) {off : Nat} (h : off < 4096) (h4 : off % 4 = 0) :
    hostRead (s.blockBase + off) 4 s = .next (s.setBusData (readOffset off s)) := by
  simp [hostRead, accessOffset_reg hb h h4]

/-- The offset of a supported access. -/
theorem accessOffset_ok {s : State} {addr bytes off : Nat} (h : accessOffset addr bytes s = .ok off) :
    addr = s.blockBase + off ∧ off < 4096 ∧ bytes = 4 ∧ addr % 4 = 0 := by
  unfold accessOffset at h
  split at h
  · cases h
  · split at h
    · cases h
    · split at h
      · cases h
      · cases h
        simp only [Config.windowSize] at *
        omega

theorem decode_cmd (w : Word) : decode ⟨8, w⟩ = decodeCmd w := rfl

theorem decode_snap (w : Word) : decode ⟨0x2C, w⟩ = .ok .snap := rfl

/-- A command word written to `CMD` runs its instruction. -/
theorem writeOffset_cmd_ok {w : Word} {i : Instr} (s : State) (h : decodeCmd w = .ok i) :
    writeOffset 8 w s = exec i s := by
  simp only [writeOffset, decode_cmd, h]

/-- A word that is no command, written to `CMD`. -/
theorem writeOffset_cmd_error {w : Word} {r : Reject} (s : State) (h : decodeCmd w = .error r) :
    writeOffset 8 w s = illegalWord s := by
  simp only [writeOffset, decode_cmd, h]
  rfl

/-- Only the offsets of `CMD` and `SNAP` carry instructions. -/
theorem decode_ok_offset {h : HostWrite} {i : Instr} (hd : decode h = .ok i) :
    (h.offset = 8 ∧ decodeCmd h.value = .ok i) ∨ (h.offset = 0x2C ∧ i = .snap) := by
  unfold decode at hd
  cases hr : regAt h.offset with
  | none => rw [hr] at hd; cases hd
  | some r =>
    rw [hr] at hd
    have ho := regOffset_of_regAt hr
    cases r <;> first
      | exact .inl ⟨by simpa [regOffset] using ho.symm, hd⟩
      | (cases hd; exact .inr ⟨by simpa [regOffset] using ho.symm, rfl⟩)
      | cases hd

/-- Everything a write at a window offset can do (20_memory.md R47). -/
theorem writeOffset_cases (off : Nat) (v : Word) (s : State) :
    (∃ i, off = 8 ∧ decodeCmd v = .ok i ∧ writeOffset off v s = exec i s) ∨
    (off = 0x2C ∧ writeOffset off v s = execSnap s) ∨
    (∃ r, off = 8 ∧ decodeCmd v = .error r ∧ writeOffset off v s = illegalWord s) ∨
    (off = 0 ∧ writeOffset off v s = .next (s.writeCtrl v)) ∨
    (off = 4 ∧ writeOffset off v s = .next (s.clearErrors v)) ∨
    (off ≠ 0 ∧ off ≠ 4 ∧ off ≠ 8 ∧ off ≠ 0x2C ∧ writeOffset off v s = .next s) := by
  by_cases h8 : off = 8
  · subst h8
    cases hd : decodeCmd v with
    | ok i => exact .inl ⟨i, rfl, rfl, by simp only [writeOffset, decode_cmd, hd]⟩
    | error r =>
      refine .inr (.inr (.inl ⟨r, rfl, rfl, ?_⟩))
      simp only [writeOffset, decode_cmd, hd]
      rfl
  by_cases h2c : off = 0x2C
  · subst h2c
    exact .inr (.inl ⟨rfl, rfl⟩)
  by_cases h0 : off = 0
  · subst h0
    exact .inr (.inr (.inr (.inl ⟨rfl, rfl⟩)))
  by_cases h4 : off = 4
  · subst h4
    exact .inr (.inr (.inr (.inr (.inl ⟨rfl, rfl⟩))))
  refine .inr (.inr (.inr (.inr (.inr ⟨h0, h4, h8, h2c, ?_⟩))))
  cases hr : regAt off with
  | none => simp [writeOffset, decode, hr]
  | some r =>
    have ho := regOffset_of_regAt hr
    cases r <;> simp [regOffset] at ho <;> first | omega | simp [writeOffset, decode, hr]

/-- Everything a host read can do (20_memory.md R47). -/
theorem hostRead_cases {addr bytes : Nat} {s s' : State} (h : hostRead addr bytes s = .next s') :
    ∃ off, accessOffset addr bytes s = .ok off ∧ s' = s.setBusData (readOffset off s) := by
  unfold hostRead at h
  cases ha : accessOffset addr bytes s <;> rw [ha] at h <;> cases h
  exact ⟨_, rfl, rfl⟩

/-- Everything a host write can do (20_memory.md R47). -/
theorem hostWrite_cases {addr bytes : Nat} {v : Word} {s s' : State} (h : hostWrite addr bytes v s = .next s') :
    ∃ off, accessOffset addr bytes s = .ok off ∧ writeOffset off v s = .next s' := by
  unfold hostWrite at h
  cases ha : accessOffset addr bytes s <;> rw [ha] at h
  · cases h
  · exact ⟨_, rfl, h⟩

/-! ### The step -/

theorem step_of_nil {s : State} (h : s.script = []) : step s = loopTurn s := by simp [step, h]

theorem step_of_cons {s : State} {e : Event} {rest : List Event} (h : s.script = e :: rest) :
    step s = perform e (s.setScript rest) := by simp [step, h]

/-- Everything a step can do (00_scope.md R12): the Loop's turn with nothing pending, or the first pending event. -/
theorem step_cases {s s' : State} (h : step s = .next s') :
    (s.script = [] ∧ loopTurn s = .next s') ∨
    (∃ e rest, s.script = e :: rest ∧ perform e (s.setScript rest) = .next s') := by
  cases hs : s.script with
  | nil => exact .inl ⟨rfl, by rw [← step_of_nil hs]; exact h⟩
  | cons e rest => exact .inr ⟨e, rest, rfl, by rw [← step_of_cons hs]; exact h⟩

end Sys2Proof.Machine
end

