-- ==== Sys2Proof/Tests/Slice0.lean ====
section
/-! SUPPORT. Tests with values from 95_test_vectors.md, the smoke tests of `wellFormed`, one decoded word per constructor,
and a witness for the hypotheses of each statement that has any. -/

namespace Sys2Proof.Tests

open Sys2Proof.Machine

set_option Elab.async false

/-! ### Small states -/

/-- `RESULT` of a next state. -/
def resultOf (o : StepResult) : Option Word :=
  match o with
  | .next t => some t.result
  | _ => none

/-- `STATUS` of a next state. -/
def statusOf (o : StepResult) : Option Word :=
  match o with
  | .next t => some (statusWord t)
  | _ => none

/-- `CURSOR` of a next state. -/
def cursorOf (o : StepResult) : Option Word :=
  match o with
  | .next t => some (cursorWord t)
  | _ => none

/-- The outcome is a next state. -/
def isNext (o : StepResult) : Bool :=
  match o with
  | .next _ => true
  | _ => false

theorem next_of_isNext {o : StepResult} (h : isNext o = true) : ∃ t, o = .next t := by
  cases o with
  | next t => exact ⟨t, rfl⟩
  | fault f => cases h
  | refused r => cases h

/-- "Stopped" of 95_test_vectors.md: reset, then `wr CTRL, 0` and the Loop's exit. -/
def stopped : State := { State.reset with run := false, running := false }

/-- Stopped with the given bytes in the buffer. -/
def holding (bytes : List Byte) : State := stopped.setBuffer bytes

/-- Stopped and LOCKED at index 0 of the given bytes. -/
def lockedOn (bytes : List Byte) : State := (holding bytes).setPosition .locked 0 0

/-- Stopped in HUNT with the given bytes, `SCAN_FROM = from`. -/
def huntFrom (bytes : List Byte) (start : Nat) : State := (holding bytes).setPosition .hunt 0 start

/-- Stopped with the given bytes on the transport and one draw that returns `k` of them. -/
def receiving (bytes : List Byte) (k : Nat) (s : State) : State := { s with rxq := bytes, draws := [k] }

/-- The state with the loop running. -/
def looping (s : State) : State := { s with run := true, running := true }

/-- The canonical frame `F(1234)` of 95_test_vectors.md. -/
def f1234 : List Byte :=
  [0x21, 0x55, 0x3E, 0xAA, 0xD2, 0x04, 0x2E, 0xFB, 0xFF, 0xFF, 0x9F, 0x8C, 0x00, 0x00, 0xFF, 0xFF,
   0x50, 0x46, 0xE8, 0x03, 0x18, 0xFC, 0xFF, 0x7F, 0x00, 0x80, 0x01, 0x00, 0x00, 0x80, 0xFF, 0xFF] ++
  [0xFF, 0xFF, 0xFF, 0x7F, 0x00, 0x00, 0x00, 0x80, 0x01, 0x00, 0x00, 0x00, 0x00, 0x00, 0x00, 0x00,
   0x00, 0x40, 0x00, 0xC0, 0x00, 0x80, 0x00, 0x00, 0xF6, 0x09, 0x01, 0x02, 0x03, 0x04, 0x0D]

/-- The short frame `S5` of 95_test_vectors.md. -/
def s5 : List Byte := [0x21, 0x00, 0x05, 0x00, 0x00, 0x0D]

/-- A frame with `L = 61`, the longest that is too short to decode. -/
def s61 : List Byte := [0x21, 0x00, 61] ++ List.replicate 58 0x00 ++ [0x0D]

/-- A frame with `L = 255`. -/
def b255 : List Byte := [0x21, 0x00, 0xFF] ++ List.replicate 252 0x00 ++ [0x0D]

/-- Zeros: bytes that are no marker and no terminator. -/
def zeros (n : Nat) : List Byte := List.replicate n 0x00

/-- The length byte of the frame at `CUR`. -/
abbrev lenAtCur (s : State) : Byte := Memory.read s.buf (s.cur.toNat + s.params.lenOff)

/-- The frame at `CUR` passes the slack check, or does not (41_frame_buffer.md R76). -/
abbrev clearOfTail (s : State) : Prop := s.cur.toNat + (lenAtCur s).toNat + s.params.slack ≤ s.bufLen
abbrev nearTail (s : State) : Prop := s.bufLen < s.cur.toNat + (lenAtCur s).toNat + s.params.slack

/-- `SLACK` bytes are available, or fewer. -/
abbrev fed (s : State) : Prop := s.params.slack ≤ s.rxq.length
abbrev starving (s : State) : Prop := s.rxq.length < s.params.slack

/-- The result of the scan of the valid bytes. -/
def scanned (s : State) (start : Nat) : ScanResult := (scan s.params s.bytes start).1

/-! ### WellFormed smoke tests (30_encoding.md R57, R62) -/

theorem test_wf_find : wellFormed (.find 65535) = true ∧ wellFormed (.find 65536) = false := by decide
theorem test_wf_ext8u : wellFormed (.ext8u 65535) = true ∧ wellFormed (.ext8u 65536) = false := by decide
theorem test_wf_ext16u : wellFormed (.ext16u 65535) = true ∧ wellFormed (.ext16u 65536) = false := by decide
theorem test_wf_ext16s : wellFormed (.ext16s 65535) = true ∧ wellFormed (.ext16s 65536) = false := by decide
theorem test_wf_ext32s : wellFormed (.ext32s 65535) = true ∧ wellFormed (.ext32s 65536) = false := by decide

/-! ### Decoding: words written out from 30_encoding.md R57 (`IDX`, reserved, `OP`) and R58 -/

theorem test_decode_nop : decodeCmd 0b0000000000000000_000000000000_0000#32 = .ok .nop := by decide
theorem test_decode_next : decodeCmd 0b0000000000000000_000000000000_0001#32 = .ok .next := by decide
theorem test_decode_find : decodeCmd 0b0000000001100100_000000000000_0010#32 = .ok (.find 100) := by decide
theorem test_decode_ext8u : decodeCmd 0b1000000000000001_000000000000_0011#32 = .ok (.ext8u 32769) := by decide
theorem test_decode_ext16u : decodeCmd 0b0000000000001010_000000000000_0100#32 = .ok (.ext16u 10) := by decide
theorem test_decode_ext16s : decodeCmd 0b0000000001000011_000000000000_0101#32 = .ok (.ext16s 67) := by decide
theorem test_decode_ext32s : decodeCmd 0b0000000001001011_000000000000_0110#32 = .ok (.ext32s 75) := by decide
theorem test_decode_clear : decodeCmd 0b0000000000000000_000000000000_0111#32 = .ok .clear := by decide
theorem test_decode_snap : decode ⟨0x02C, 0x0000ABCD⟩ = .ok .snap := by decide

/-- The rejections of 30_encoding.md R59 (a), (b), (c), and those of writes and bytes that are no command. -/
theorem test_decode_rejects :
    decodeCmd 0x00000008 = .error .reservedOpcode ∧ decodeCmd 0x00000010 = .error .reservedBits ∧
    decodeCmd 0x00010007 = .error .strayIndex ∧ decode ⟨0x000, 1⟩ = .error .notInstruction ∧
    decodeBytes [0x01, 0x00, 0x00] = .error .notAWord := by decide

/-- The bytes of a word in bus lane order (20_memory.md R42). -/
theorem test_decode_lanes : decodeBytes [0x02, 0x00, 0x64, 0x00] = .ok (.find 100) := by decide

/-! ### One step of each instruction (95_test_vectors.md) -/

/-- T-SCAN-07. -/
theorem test_find_skips_spurious :
    resultOf (step ((holding [0x21, 0x00, 0x03, 0x00, 0x21, 0x00, 0x03, 0x0D]).withFetchWord 32 0x00000002)) =
      some 0x00040300 := by decide +kernel

/-- T-SCAN-15. -/
theorem test_find_masked :
    resultOf (step ((holding [0x21, 0x00, 0xFF, 0x00, 0x21, 0x00, 0x03, 0x0D]).withFetchWord 32 0x00000002)) =
      some 0x00000001 := by decide +kernel

/-- T-EXT-07. -/
theorem test_ext8u : resultOf (step ((holding f1234).withFetchWord 32 0x000F0003)) = some 0x000000FF := by decide +kernel

/-- T-EXT-05. -/
theorem test_ext8u_bounds : statusOf (step ((holding f1234).withFetchWord 32 0x003F0003)) = some 0x00000040 := by
  decide +kernel

/-- T-EXT-08. -/
theorem test_ext16u : resultOf (step ((holding f1234).withFetchWord 32 0x000A0004)) = some 0x00008C9F := by decide +kernel

/-- T-EXT-20. -/
theorem test_ext16u_bounds : statusOf (step ((holding f1234).withFetchWord 32 0x003E0004)) = some 0x00000040 := by
  decide +kernel

/-- T-EXT-16. -/
theorem test_ext16s_odd : resultOf (step ((holding f1234).withFetchWord 32 0x00050005)) = some 0x00002E04 := by
  decide +kernel

/-- T-EXT-14. -/
theorem test_ext16s_negative : resultOf (step ((holding f1234).withFetchWord 32 0x00340005)) = some 0xFFFF8000 := by
  decide +kernel

/-- T-EXT-25. -/
theorem test_ext32s_odd : resultOf (step ((holding f1234).withFetchWord 32 0x000D0006)) = some 0x50FFFF00 := by
  decide +kernel

/-- T-EXT-26. -/
theorem test_ext32s_last : resultOf (step ((holding f1234).withFetchWord 32 0x003B0006)) = some 0x0D040302 := by
  decide +kernel

/-- T-NEXT-05. -/
theorem test_next_sample :
    let o := step ((receiving (f1234 ++ f1234 ++ f1234 ++ f1234 ++ f1234) 315 stopped).withFetchWord 32 1)
    resultOf o = some 0x00003E00 ∧ statusOf o = some 0x00000006 ∧ cursorOf o = some 0x8000003F := by decide +kernel

/-- T-NEXT-08. -/
theorem test_next_short :
    let o := step ((receiving (s5 ++ f1234 ++ f1234 ++ f1234 ++ f1234) 258 stopped).withFetchWord 32 1)
    resultOf o = some 0x00000503 ∧ statusOf o = some 0x00000084 ∧ cursorOf o = some 0x80000006 := by decide +kernel

/-- T-CLR-01, on a buffer of one frame. -/
theorem test_clear :
    let o := step ((lockedOn f1234).withFetchWord 32 7)
    statusOf o = some 0x00000000 ∧ cursorOf o = some 0 := by decide +kernel

/-- T-NOP-02: the write arrives while the loop runs. -/
theorem test_nop_busy : statusOf (hostWrite 0x008 4 0 State.reset) = some 0x00000011 := by decide +kernel

/-- T-NOP-01. -/
theorem test_nop : resultOf (step ((stopped.setResult 0x00003E00).withFetchWord 32 0)) = some 0x00003E00 := by
  decide +kernel

/-- T-SNAP-01 and the sequence number of 10_state.md R34: `FRAME_CNT mod 2^31` beside `VIEW_VALID`. -/
theorem test_snap :
    (match step ({ State.reset with frameCnt := 0x80000003, pubValid := true }.withFetchWord 0 0) with
      | .next t => viewSeqWord t == 0x80000003
      | _ => false) = true := by decide +kernel

/-! ### The Loop and the host registers (95_test_vectors.md) -/

/-- T-LOOP-01. -/
theorem test_loop_no_data : statusOf (step State.reset) = some 0x00000001 := by decide +kernel

/-- T-REG-08, the exit. -/
theorem test_loop_exit : statusOf (step { State.reset with run := false }) = some 0x00000000 := by decide +kernel

/-- T-REG-12, its second write: the bits 3:0 are not cleared by a write of 1. -/
theorem test_status_w1c :
    statusOf (hostWrite 0x004 4 0x0000000F { State.reset with errIllegal := true }) = some 0x00000021 := by decide +kernel

/-- T-REG-13: busy comes before illegal. -/
theorem test_busy_before_illegal : statusOf (hostWrite 0x008 4 0x00000009 State.reset) = some 0x00000011 := by
  decide +kernel

/-- T-DEC-01, six of its rows. -/
theorem test_decode_frame :
    let p := decodeFrame (holding f1234) 0
    p.pitch = 0xFFFFFB2E ∧ p.compass = 0x00008C9F ∧ p.altitude = 0xFFFF0000 ∧ p.velY = 0xFFFF8000 ∧
      p.quatX = 0xFFFFC000 ∧ p.stSelftest = 4 := by decide +kernel

/-- A counter wraps to 0 (60_exceptions.md R118). -/
theorem test_counter_wraps : counterAfter Config.hardware 0xFFFFFFFF 1 = 0 := by decide +kernel

/-- The parameters are arguments (00_scope.md R7): other values of `MARKER`, `TERM`, `LEN_OFF`, `BUF_CAP` and `CNT_W`. -/
theorem test_parameters_are_arguments :
    let p : Params := { Config.hardware with marker := 0x40, term := 0x0A, lenOff := 1, bufCap := 766, cntW := 8 }
    scan p [0x21, 0x00, 0x03, 0x0D, 0x40, 0x02, 0x0A] 0 = (.found 4, 0) ∧
      readReg .bufCap { State.reset with params := p } = 766 ∧ counterAfter p 0xFF 1 = 0 := by decide +kernel

/-- The field offsets and scales are arguments (D30): another offset moves the field, another scale divides it. -/
theorem test_fields_are_arguments :
    let p : Params := { Config.hardware with
      fieldOffsets := { Config.wireOffsets with yaw := 6 }, fieldScales := { Config.wireScales with yaw := 10 } }
    (decodeFrame { holding f1234 with params := p } 0).yaw = 0xFFFFFB2E ∧ fieldScale p .yaw = 10 ∧
      (decodeFrame (holding f1234) 0).yaw = 0x000004D2 := by decide +kernel

/-- The canonical form of the buffer's cells. -/
theorem test_memory_wf :
    Memory.wf (Memory.ofBytes [0x21, 0x00, 0x0D]) = true ∧ Memory.wf [(2, 0x0D), (0, 0x21)] = false ∧
      Memory.wf [(1, 0x00)] = false := by decide

/-! ### Witnesses: states and operands that meet the hypotheses of the statements, clause by clause

Encodings. -/

theorem witness_EncodingRoundTrips :
    wellFormed (.find 0) = true ∧ wellFormed (.ext32s 65535) = true ∧ wellFormed .snap = true := by decide

theorem witness_CommandWordsHaveOneMeaning :
    decodeCmd 0xFFFF0002 = .ok (.find 65535) ∧ decodeCmd 0x00000007 = .ok .clear := by decide

theorem witness_IllegalWordsRaiseErrIllegal :
    stopped.blockBase % 4 = 0 ∧ stopped.running = false ∧ (decodeCmd 0x00000008 = .error .reservedOpcode) ∧
      (decodeCmd 0x0000FFF2 = .error .reservedBits) ∧ (decodeCmd 0x00010000 = .error .strayIndex) := by decide

/-- The host write `NEXT` is pending, then the loop's turn. -/
def pendingNext : State := { stopped with script := [.hostWrite 8 4 1, .loop] }

theorem witness_StepRunsTheDecodedInstruction :
    pendingNext.blockBase % 4 = 0 ∧ pendingNext.script = .hostWrite (pendingNext.blockBase + 8) 4 1 :: [.loop] ∧
      decode ⟨8, 1⟩ = .ok .next := by decide

theorem witness_StagedWordRunsNext :
    stopped.blockBase % 4 = 0 ∧ decodeTableWord 32 0xFFFF0006 = some (.ext32s 65535) ∧
      decodeTableWord 0 0 = some .snap := by decide

theorem witness_CommandWriteOrder_busy : State.reset.blockBase % 4 = 0 ∧ State.reset.running = true := by decide

theorem witness_CommandWriteOrder_stopped :
    stopped.blockBase % 4 = 0 ∧ stopped.running = false ∧ decodeCmd 0x0000000F = .error .reservedOpcode ∧
      decodeCmd 0x00000000 = .ok .nop := by decide

theorem witness_BusyWriteChangesNothingElse : State.reset.blockBase % 4 = 0 ∧ State.reset.running = true := by decide

theorem witness_CommandRaisesAtMostOneError_busy : ∃ t, hostWrite (State.reset.blockBase + 8) 4 1 State.reset = .next t :=
  next_of_isNext (by decide +kernel)

theorem witness_CommandRaisesAtMostOneError_bounds : ∃ t, hostWrite (stopped.blockBase + 8) 4 3 stopped = .next t :=
  next_of_isNext (by decide +kernel)

/-! The extract commands: `BUF = F(1234)`, 63 bytes. -/

/-- The words of the encoding clauses, with and without a reserved bit. -/
theorem witness_extract_words :
    (0x003E0003 : Word).extractLsb' 0 4 = 3 ∧ (0x003E0003 : Word).extractLsb' 4 12 = 0 ∧
    (0x003E0014 : Word).extractLsb' 0 4 = 4 ∧ (0x003E0014 : Word).extractLsb' 4 12 ≠ 0 ∧
    (0x003E0005 : Word).extractLsb' 0 4 = 5 ∧ (0xFFFF8006 : Word).extractLsb' 0 4 = 6 ∧
    (0xFFFF8006 : Word).extractLsb' 4 12 ≠ 0 ∧ (0xFFFF0002 : Word).extractLsb' 0 4 = 2 := by decide

theorem witness_extract_busy : (looping (holding f1234)).running = true := by decide +kernel

theorem witness_Ext8uReadsAByte :
    (holding f1234).running = false ∧ 62 + 1 ≤ (holding f1234).bufLen ∧ (holding f1234).bufLen < 63 + 1 := by
  decide +kernel

theorem witness_Ext16uReadsLittleEndianUnsigned :
    (holding f1234).running = false ∧ 61 + 2 ≤ (holding f1234).bufLen ∧ (holding f1234).bufLen < 62 + 2 := by
  decide +kernel

theorem witness_Ext16sReadsLittleEndianSigned :
    (holding f1234).running = false ∧ 0 + 2 ≤ (holding f1234).bufLen ∧ stopped.running = false ∧
      stopped.bufLen < 0 + 2 := by decide +kernel

theorem witness_Ext32sReadsLittleEndianWord :
    (holding f1234).running = false ∧ 59 + 4 ≤ (holding f1234).bufLen ∧ (holding f1234).bufLen < 60 + 4 := by
  decide +kernel

theorem witness_NarrowExtractionsSeeTheWideField :
    (holding f1234).running = false ∧ 59 + 4 ≤ (holding f1234).bufLen ∧ 61 + 2 ≤ (holding f1234).bufLen := by
  decide +kernel

theorem witness_InspectingCommandsFrame_nop : ∃ t, exec .nop stopped = .next t := next_of_isNext (by decide +kernel)

theorem witness_InspectingCommandsFrame_ext : ∃ t, exec (.ext16s 62) (holding f1234) = .next t :=
  next_of_isNext (by decide +kernel)

/-! The scan. -/

theorem witness_ScanFollowsItsDefinition_none :
    ∀ j, 1 ≤ j → ([0x21, 0x00, 0x05] : List Byte)[j]? ≠ some Config.hardware.marker := by
  intro j h
  match j with
  | 1 => decide
  | 2 => decide
  | j + 3 => simp

/-- A marker at 0 with its length byte missing; with the terminator one short of its place; with it; and a spurious one. -/
theorem witness_ScanFollowsItsDefinition_marker :
    let p := Config.hardware
    (([0x21, 0x00] : List Byte)[0]? = some p.marker ∧ ([0x21, 0x00] : List Byte).length ≤ 0 + p.lenOff ∧
      ([0x21, 0x00, 0x03] : List Byte)[0 + p.lenOff]? = some 3 ∧ ([0x21, 0x00, 0x03] : List Byte).length ≤ 0 + 3 ∧
      ([0x21, 0x00, 0x03, 0x0D] : List Byte)[0 + 3]? = some p.term ∧
      ([0x21, 0x00, 0x03, 0x0E] : List Byte)[0 + 3]? = some 0x0E ∧ (0x0E : Byte) ≠ p.term) ∧
    ∀ j, 0 ≤ j → j < 0 → s5[j]? ≠ some p.marker :=
  ⟨by decide, fun _ _ h => absurd h (Nat.not_lt_zero _)⟩

/-- T-SCAN-07, T-SCAN-14 and T-SCAN-08. -/
theorem witness_ScanAnswersAreExact :
    scan Config.hardware [0x21, 0x00, 0x03, 0x00, 0x21, 0x00, 0x03, 0x0D] 0 = (.found 4, 1) ∧
    scan Config.hardware [0x21, 0x00, 0x03, 0x00, 0x21, 0x00, 0x09] 0 = (.incomplete 4, 1) ∧
    scan Config.hardware [0x21, 0x00, 0x00, 0x0D] 0 = (.none, 1) := by decide

theorem witness_SmallLengthsAreNotSpecial :
    let p := Config.hardware
    p.marker ≠ p.term ∧ (2 : Byte).toNat = p.lenOff ∧ (2 : Byte) ≠ p.term ∧
    ([0x21, 0x00, 0x00, 0x0D] : List Byte)[0]? = some p.marker ∧
    ([0x21, 0x00, 0x00, 0x0D] : List Byte)[0 + p.lenOff]? = some 0 ∧
    ([0x21, 0x00, 0x02, 0x0D] : List Byte)[0 + p.lenOff]? = some 2 ∧
    ([0x21, 0x0D, 0x01] : List Byte)[0 + p.lenOff]? = some 1 ∧
    ([0x21, 0x0D, 0x01] : List Byte)[0 + 1]? = some p.term := by decide

theorem witness_FindReportsTheScan :
    (holding s5).running = false ∧ scan (holding s5).params (holding s5).bytes 0 = (.found 0, 0) ∧
    scan (holding s5).params (holding s5).bytes 65535 = (.none, 0) ∧ (holding [0x21]).running = false ∧
    scan (holding [0x21]).params (holding [0x21]).bytes 0 = (.incomplete 0, 0) ∧ (looping stopped).running = true := by
  decide +kernel

theorem witness_FindResultFields : ∃ t, exec (.find 0) (holding s5) = .next t := next_of_isNext (by decide +kernel)

theorem witness_FindResultFields_state :
    (holding s5).params.inRange ∧ Inv4 (holding s5) ∧ (holding s5).running = false := by decide +kernel

/-! The frame decoder. -/

/-- A raw value at an end of its range for each form: `accZ`, `quatY` and `velZ` of `F(1234)`, `compass` and `stOp` of a
frame of bytes 0xFF. -/
theorem witness_FieldsRoundTrip_signed :
    let s := holding f1234
    (0x00007FFF : Word).toInt ≤ 32767 ∧ -32768 ≤ (0xFFFF8000 : Word).toInt ∧
    (∀ k, k < 2 →
      Memory.read s.buf (0 + fieldOffset s.params .accZ + k) = ((0x00007FFF : Word) >>> (8 * k)).setWidth 8) ∧
    ∀ k, k < 2 →
      Memory.read s.buf (0 + fieldOffset s.params .quatY + k) = ((0xFFFF8000 : Word) >>> (8 * k)).setWidth 8 := by
  decide +kernel

theorem witness_FieldsRoundTrip_others :
    let s := holding f1234
    let t := holding (List.replicate 62 0xFF)
    (∀ k, k < 4 →
      Memory.read s.buf (0 + fieldOffset s.params .velZ + k) = ((0x7FFFFFFF : Word) >>> (8 * k)).setWidth 8) ∧
    (0x0000FFFF : Word).toNat ≤ 65535 ∧
    (∀ k, k < 2 →
      Memory.read t.buf (0 + fieldOffset t.params .compass + k) = ((0x0000FFFF : Word) >>> (8 * k)).setWidth 8) ∧
    (0x000000FF : Word).toNat ≤ 255 ∧
    ∀ k, k < 1 →
      Memory.read t.buf (0 + fieldOffset t.params .stOp + k) = ((0x000000FF : Word) >>> (8 * k)).setWidth 8 := by
  decide +kernel

theorem witness_WorkedFieldValues :
    let s := holding f1234
    let o := s.params.fieldOffsets
    s.params = Config.hardware ∧ o.yaw = 4 ∧ o.altitude = 12 ∧
    Memory.read s.buf (0 + o.yaw) = 0xD2 ∧ Memory.read s.buf (0 + o.yaw + 1) = 0x04 ∧
    Memory.read s.buf (0 + o.altitude) = 0x00 ∧ Memory.read s.buf (0 + o.altitude + 1) = 0x00 ∧
    Memory.read s.buf (0 + o.altitude + 2) = 0xFF ∧ Memory.read s.buf (0 + o.altitude + 3) = 0xFF := by decide +kernel

/-- T-DEC-02: other bytes at the offsets 1 and 3, and the frame one byte further on. -/
theorem witness_DecodeReadsOnlyItsFields :
    let s := holding f1234
    let t := holding ([0x77, 0x21, 0x00, 0x3E, 0x21] ++ f1234.drop 4)
    s.params.fieldOffsets = t.params.fieldOffsets ∧
    ∀ f j, j < formWidth (fieldForm f) →
      Memory.read s.buf (0 + (fieldOffset s.params f + j)) = Memory.read t.buf (1 + (fieldOffset s.params f + j)) := by
  refine ⟨rfl, fun f => ?_⟩
  cases f <;> decide +kernel

/-! `NEXT` with a LOCKED frame that just passes the slack check: 62 + 256 = 318 bytes. -/

/-- Nothing, a frame, or an incomplete candidate behind `F(1234)`. -/
def publishNone : State := lockedOn (f1234 ++ zeros 255)
def publishFound : State := lockedOn (f1234 ++ f1234 ++ zeros 192)
def publishIncomplete : State := lockedOn (f1234 ++ zeros 254 ++ [0x21])

theorem witness_NextPublishesTheFrame_none :
    publishNone.running = false ∧ publishNone.sync = .locked ∧
      lenAtCur publishNone = 62 ∧ publishNone.params.minFrame ≤ (62 : Byte).toNat ∧ clearOfTail publishNone ∧
      scanned publishNone 63 = .none := by decide +kernel

theorem witness_NextPublishesTheFrame_found :
    publishFound.running = false ∧ publishFound.sync = .locked ∧
      lenAtCur publishFound = 62 ∧ clearOfTail publishFound ∧ scanned publishFound 63 = .found 63 := by
  decide +kernel

theorem witness_NextPublishesTheFrame_incomplete :
    publishIncomplete.running = false ∧ publishIncomplete.sync = .locked ∧
      lenAtCur publishIncomplete = 62 ∧ clearOfTail publishIncomplete ∧
      scanned publishIncomplete 63 = .incomplete 317 := by decide +kernel

/-- The same behind a frame with `L = 61`. -/
def skipNone : State := lockedOn (s61 ++ zeros 255)
def skipFound : State := lockedOn (s61 ++ f1234 ++ zeros 192)
def skipIncomplete : State := lockedOn (s61 ++ zeros 254 ++ [0x21])

theorem witness_NextSkipsAShortFrame_none :
    skipNone.running = false ∧ skipNone.sync = .locked ∧ lenAtCur skipNone = 61 ∧
      clearOfTail skipNone ∧ (61 : Byte).toNat < skipNone.params.minFrame ∧ scanned skipNone 62 = .none := by
  decide +kernel

theorem witness_NextSkipsAShortFrame_found :
    skipFound.running = false ∧ skipFound.sync = .locked ∧ lenAtCur skipFound = 61 ∧
      clearOfTail skipFound ∧ scanned skipFound 62 = .found 62 := by decide +kernel

theorem witness_NextSkipsAShortFrame_incomplete :
    skipIncomplete.running = false ∧ skipIncomplete.sync = .locked ∧
      lenAtCur skipIncomplete = 61 ∧ clearOfTail skipIncomplete ∧
      scanned skipIncomplete 62 = .incomplete 316 := by decide +kernel

/-- EMPTY and HUNT with 255 bytes available. -/
def starved : State := receiving (zeros 255) 255 stopped
def starvedHunt : State := receiving (zeros 255) 255 (huntFrom [0x21] 0)

theorem witness_NoDataChangesNothing :
    starved.running = false ∧ starved.transportUp = true ∧ starving starved ∧ starved.sync ≠ .locked ∧
    starvedHunt.running = false ∧ starvedHunt.transportUp = true ∧ starving starvedHunt ∧
    starvedHunt.sync ≠ .locked := by decide +kernel

theorem witness_NoDataChangesNothing_core : nextCore starved = .ok ⟨.noData, 0, starved⟩ := by decide +kernel

/-- One byte short of the slack check. -/
def held : State := receiving (zeros 255) 255 (lockedOn (f1234 ++ zeros 254))

theorem witness_TailStallHoldsTheFrame :
    held.sync = .locked ∧ held.transportUp = true ∧ starving held ∧ nearTail held ∧ held.running = false ∧
    (looping held).sync = .locked ∧ (looping held).transportUp = true ∧ starving (looping held) ∧
    nearTail (looping held) ∧
    (looping held).running = true ∧ (looping held).run = true := by decide +kernel

/-- EMPTY with 256 bytes available, the last one a marker. -/
def noisy : State := receiving (zeros 255 ++ [0x21]) 256 stopped

theorem witness_NextDropsNoiseInEmpty :
    noisy.running = false ∧ noisy.sync = .empty ∧ noisy.transportUp = true ∧ fed noisy ∧
      noisy.draws = 256 :: [] ∧ (scan noisy.params (noisy.rxq.take 256) 0).1 = .incomplete 255 := by decide +kernel

/-! `NextCore`: the cases of 41_frame_buffer.md R79. -/

/-- EMPTY with a frame coming, HUNT with 256 bytes coming, and a held LOCKED frame with 256 bytes coming. -/
def incoming : State := receiving (f1234 ++ zeros 193) 256 stopped
def hunting : State := receiving (zeros 256) 256 (huntFrom [0x21] 0)
def refilled : State := receiving (zeros 256) 256 (lockedOn (f1234 ++ zeros 254))

theorem witness_NextCoreFollowsItsRule_words :
    (0x00000001 : Word).extractLsb' 0 4 = 1 ∧ (0x00000001 : Word).extractLsb' 4 28 = 0 ∧
    (0x80000001 : Word).extractLsb' 0 4 = 1 ∧ (0x80000001 : Word).extractLsb' 4 28 ≠ 0 ∧
    State.reset.running = true := by decide

theorem witness_NextCoreFollowsItsRule_unlocked :
    starved.transportUp = true ∧ starved.sync ≠ .locked ∧ starving starved ∧
    hunting.transportUp = true ∧ hunting.sync ≠ .locked ∧ fed hunting ∧
    (ingest hunting.rxq.length hunting).sync ≠ .locked ∧
    incoming.transportUp = true ∧ incoming.sync ≠ .locked ∧ fed incoming ∧
    (ingest incoming.rxq.length incoming).sync = .locked := by decide +kernel

theorem witness_NextCoreFollowsItsRule_locked :
    publishNone.transportUp = true ∧ publishNone.sync = .locked ∧
    ¬ nearTail publishNone ∧
    held.transportUp = true ∧ held.sync = .locked ∧
    nearTail held ∧ starving held ∧
    refilled.transportUp = true ∧ refilled.sync = .locked ∧
    nearTail refilled ∧ fed refilled ∧ refilled.running = false := by decide +kernel

theorem witness_NextFrame_refilled : ∃ t, exec .next refilled = .next t := next_of_isNext (by decide +kernel)

theorem witness_NextFrame_unread : ∃ t, exec .next publishNone = .next t := next_of_isNext (by decide +kernel)

theorem witness_NextFrame_busy : ∃ t, exec .next (looping held) = .next t := next_of_isNext (by decide +kernel)

theorem witness_NextFrame_bytes : 316 < refilled.bufLen - refilled.cur.toNat := by decide +kernel

theorem witness_NextResultFields : (∃ t, exec .next skipNone = .next t) ∧ skipNone.running = false :=
  ⟨next_of_isNext (by decide +kernel), by decide +kernel⟩

/-- Two frames, the second just far enough from the tail. -/
def backToBack : State := lockedOn (f1234 ++ f1234 ++ zeros 255)

/-- Two frames and nothing behind them, 256 bytes coming, and a first `Read` that returns `k` of them. -/
def backToBackTail (k : Nat) : State := receiving (zeros 256) k (lockedOn (f1234 ++ f1234))

/-- The state a `NextCore` leaves. -/
def afterCore (s : State) : State :=
  match nextCore s with
  | .ok o => o.state
  | .error _ => s

/-- `FieldsFit` holds of this hardware's parameters, which the three states below have. -/
theorem witness_BackToBackFramesInOrder_fit :
    FieldsFit Config.hardware ∧ backToBack.params = Config.hardware ∧ ∀ k, (backToBackTail k).params = Config.hardware :=
  ⟨fun f => by cases f <;> decide, rfl, fun _ => rfl⟩

theorem witness_BackToBackFramesInOrder_passes :
    backToBack.params.inRange ∧ backToBack.params.minFrame ≤ (62 : Byte).toNat ∧
      SyncInv backToBack ∧ backToBack.sync = .locked ∧ lenAtCur backToBack = 62 ∧
      validStart backToBack.params backToBack.bytes (backToBack.cur.toNat + 62 + 1) = true ∧
      Memory.read backToBack.buf (backToBack.cur.toNat + 62 + 1 + backToBack.params.lenOff) = 62 ∧
      clearOfTail backToBack ∧ (afterCore backToBack).cur = 63 ∧ clearOfTail (afterCore backToBack) := by decide +kernel

/-- Neither call passes the slack check, and each finds 256 bytes, the first `Read` returning none of them. -/
theorem witness_BackToBackFramesInOrder_supplied :
    let s := backToBackTail 0
    s.params.inRange ∧ SyncInv s ∧ s.sync = .locked ∧ lenAtCur s = 62 ∧
      validStart s.params s.bytes (s.cur.toNat + 62 + 1) = true ∧
      Memory.read s.buf (s.cur.toNat + 62 + 1 + s.params.lenOff) = 62 ∧ nearTail s ∧ s.transportUp = true ∧ fed s ∧
      nearTail (afterCore s) ∧ (afterCore s).transportUp = true ∧ fed (afterCore s) := by decide +kernel

/-- The first call takes one of the 256 bytes, so the second neither passes nor finds 256. -/
theorem witness_BackToBackFramesInOrder_starved :
    let s := backToBackTail 1
    s.params.inRange ∧ SyncInv s ∧ s.sync = .locked ∧ lenAtCur s = 62 ∧
      validStart s.params s.bytes (s.cur.toNat + 62 + 1) = true ∧
      Memory.read s.buf (s.cur.toNat + 62 + 1 + s.params.lenOff) = 62 ∧ s.transportUp = true ∧ fed s ∧
      nearTail (afterCore s) ∧ (afterCore s).transportUp = true ∧ starving (afterCore s) := by decide +kernel

/-! `CLEAR`, `NOP`, `SNAP`, the Loop and the registers. -/

theorem witness_ClearEmptiesTheBuffer :
    (0x00000007 : Word).extractLsb' 0 4 = 7 ∧ (0x00000007 : Word).extractLsb' 4 28 = 0 ∧
    (0x00010007 : Word).extractLsb' 0 4 = 7 ∧ (0x00010007 : Word).extractLsb' 4 28 ≠ 0 ∧
    (lockedOn f1234).running = false ∧ (looping (lockedOn f1234)).running = true := by decide +kernel

theorem witness_NopChangesNothing :
    (0x00000000 : Word).extractLsb' 0 4 = 0 ∧ (0x00000000 : Word).extractLsb' 4 28 = 0 ∧
    (0x00000010 : Word).extractLsb' 0 4 = 0 ∧ (0x00000010 : Word).extractLsb' 4 28 ≠ 0 ∧
    stopped.running = false ∧ State.reset.running = true := by decide

theorem witness_SnapCopiesThePublishedSample : State.reset.blockBase % 4 = 0 := by decide

theorem witness_LoopStepFollowsItsRule :
    stopped.running = false ∧ State.reset.running = true ∧ State.reset.transportUp = true ∧ State.reset.run = true ∧
    { State.reset with run := false }.run = false ∧ { State.reset with run := false }.running = true := by decide

theorem witness_LoopStepFollowsItsRule_next : ∃ t, loopTurn State.reset = .next t := next_of_isNext (by decide +kernel)

theorem witness_CtrlWriteStartsAndStops :
    State.reset.blockBase % 4 = 0 ∧ (0xFFFFFFFE : Word).getLsbD 0 = false ∧ (0x00000001 : Word).getLsbD 0 = true := by
  decide

theorem witness_RegisterStatements :
    State.reset.blockBase % 4 = 0 ∧ State.reset.params.inRange ∧ Inv4 State.reset := by decide

theorem witness_ViewRegistersReadTheSnapshot :
    allFields[0]? = some .yaw ∧ allFields[23]? = some .stSelftest ∧ State.reset.blockBase % 4 = 0 := by decide

theorem witness_ReservedOffsetsAndReadOnlyRegisters :
    (0x034 < 4096 ∧ 0x034 % 4 = 0 ∧ 0x034 ≤ 0x034 ∧ 0x034 < 0x040) ∧ (0x03C % 4 = 0 ∧ 0x03C < 0x040) ∧
    (0x0A0 % 4 = 0 ∧ 0x0A0 < 4096) ∧ (0xFFC % 4 = 0 ∧ 0xFFC < 4096) ∧ State.reset.blockBase % 4 = 0 := by decide

theorem witness_HostReadsHaveNoSideEffect : ∃ t, hostRead 0x028 4 State.reset = .next t :=
  next_of_isNext (by decide +kernel)

theorem witness_UnsupportedHostAccessesFault :
    State.reset.blockBase ≤ 0 ∧ 0 < State.reset.blockBase + 4096 ∧ 2 ≠ 4 ∧ State.reset.blockBase ≤ 4095 ∧
      4095 < State.reset.blockBase + 4096 ∧ 4095 % 4 ≠ 0 := by decide

theorem witness_RegistersAfterReset : 0x004 ≠ 0x008 ∧ 0x008 ≠ 0x000 ∧ 0x008 ≠ 0x028 := by decide

/-! Invariants and whole-machine rules. -/

theorem witness_StepKeepsTheSyncInvariants_locked : (looping publishIncomplete).params.inRange ∧
    SyncInv (looping publishIncomplete) ∧
    HuntRetainsFew (looping publishIncomplete) ∧ BufferWf (looping publishIncomplete) := by decide +kernel

theorem witness_StepKeepsTheSyncInvariants_hunt : (looping hunting).params.inRange ∧ SyncInv (looping hunting) ∧
    HuntRetainsFew (looping hunting) ∧ BufferWf (looping hunting) := by decide +kernel

/-- The steps of these two states, which every statement about a step covers: a publish that enters HUNT, and a HUNT
ingest. -/
theorem witness_step_locked : ∃ t, step (looping publishIncomplete) = .next t := next_of_isNext (by decide +kernel)

theorem witness_step_hunt : ∃ t, step (looping hunting) = .next t := next_of_isNext (by decide +kernel)

/-- The largest LOCKED remainder: `L = 255` and 510 bytes. -/
def largest : State := receiving (zeros 256) 256 (lockedOn (b255 ++ zeros 254))

theorem witness_IngestRetainsAtMost510 :
    SyncInv largest ∧ HuntRetainsFew largest ∧ fed largest ∧ largest.sync = .locked ∧
      nearTail largest ∧ largest.params.lenOff ≤ 255 ∧ 1 ≤ largest.params.slack ∧
      254 + 2 * largest.params.slack ≤ largest.params.bufCap ∧ largest.params.slack = 256 ∧
      (retained largest).length = 510 := by decide +kernel

theorem witness_ViewChangesOnlyAtSnap : ∃ t, step (State.reset.withFetchWord 0 0) = .next t :=
  next_of_isNext (by decide +kernel)

theorem witness_ErrorBitsAreSticky :
    (∃ t, step { State.reset with errShort := true, script := [.hostWrite 4 4 0x80] } = .next t) ∧
    ∃ t, step { State.reset with errShort := true, script := [.reset] } = .next t :=
  ⟨next_of_isNext (by decide +kernel), next_of_isNext (by decide +kernel)⟩

theorem witness_PublishHasOneWriter : ∃ t, step (publishNone.withFetchWord 32 1) = .next t :=
  next_of_isNext (by decide +kernel)

theorem witness_TransportIsAQueue : ∃ t, step { State.reset with script := [.envAppend [0x21]] } = .next t :=
  next_of_isNext (by decide +kernel)

/-- Nothing pending: no access is asked for. A supported read, at the last word of the window, is pending. -/
theorem witness_OnlyTheEnvironmentStopsAStep_loop :
    State.reset.transportUp = true ∧
      ∀ addr bytes rest, State.reset.script ≠ .hostRead addr bytes :: rest ∧
        ∀ v, State.reset.script ≠ .hostWrite addr bytes v :: rest :=
  ⟨rfl, fun _ _ _ => ⟨nofun, fun _ => nofun⟩⟩

def pendingRead (addr bytes : Nat) : State := { State.reset with script := [.hostRead addr bytes] }

theorem witness_OnlyTheEnvironmentStopsAStep_supported :
    (pendingRead 4092 4).transportUp = true ∧ (pendingRead 4092 4).script = .hostRead 4092 4 :: [] ∧
      (pendingRead 4092 4).blockBase ≤ 4092 ∧ 4092 < (pendingRead 4092 4).blockBase + 4096 ∧ 4092 % 4 = 0 := by decide

theorem witness_OnlyTheEnvironmentStopsAStep_gone :
    State.reset.loseTransport.transportUp = false ∧ State.reset.loseTransport.running = true ∧
      State.reset.loseTransport.script = [] := by decide

/-- The three unsupported accesses at the ends of the window, and the lost transport: each a fault. -/
theorem witness_OnlyTheEnvironmentStopsAStep_faults :
    step (pendingRead 4096 4) = .fault .outsideWindow ∧ step (pendingRead 4095 1) = .fault .accessWidth ∧
      step (pendingRead 4095 4) = .fault .misaligned ∧ step State.reset.loseTransport = .fault .transportGone :=
  ⟨rfl, rfl, rfl, rfl⟩

end Sys2Proof.Tests
end

section
/-! SUPPORT. A host write that decodes runs its instruction (00_scope.md R12, 20_memory.md R46, 30_encoding.md R60). -/

namespace Sys2Proof.Machine

/-- The registers that carry instructions, `CMD` and `SNAP`, stand at aligned offsets of the window. -/
theorem decode_ok_offset_supported {h : HostWrite} {i : Instr} (hd : decode h = .ok i) :
    h.offset < 4096 ∧ h.offset % 4 = 0 := by
  obtain ⟨hcmd, -⟩ | ⟨hsnap, -⟩ := decode_ok_offset hd
  · simp [hcmd]
  · simp [hsnap]

theorem writeOffset_of_decode_ok {h : HostWrite} {i : Instr} (hd : decode h = .ok i) (s : State) :
    writeOffset h.offset h.value s = exec i s := by
  simp only [writeOffset, hd]

theorem hostWrite_of_decode_ok {h : HostWrite} {i : Instr} {s : State} (hb : s.blockBase % 4 = 0)
    (hd : decode h = .ok i) : hostWrite (s.blockBase + h.offset) 4 h.value s = exec i s := by
  obtain ⟨hwindow, haligned⟩ := decode_ok_offset_supported hd
  rw [hostWrite_reg hb hwindow haligned, writeOffset_of_decode_ok hd]

/-- Settles O6: the head of `script` is performed on the state that has lost it, and that state's window stands where
it stood, so the write reaches its register there. -/
theorem stepRunsTheDecodedInstruction : Obligations.StepRunsTheDecodedInstruction := by
  intro s h i rest hb hscript hd
  calc step s
      = hostWrite ((s.setScript rest).blockBase + h.offset) 4 h.value (s.setScript rest) := step_of_cons hscript
    _ = exec i (s.setScript rest) := hostWrite_of_decode_ok (s := s.setScript rest) hb hd

end Sys2Proof.Machine
end

section
/-! SUPPORT. Everything a step can do to the state, said once: the update an event makes (00_scope.md R12, 20_memory.md R46,
R47). Every rule about all steps is a case analysis over these updates. -/

namespace Sys2Proof.Machine

/-- No command word is `SNAP`, which has a register of its own (10_state.md R33). -/
theorem decodeCmd_ne_snap (w : Word) : decodeCmd w ≠ .ok .snap := by
  unfold decodeCmd withoutIndex
  repeat' split
  all_goals simp

/-- `Effect e s s'`: the event `e` may take `s` to `s'`. One constructor for each update the model makes. -/
inductive Effect (s : State) : Event → State → Prop
  /-- A write that is ignored, `NOP`, or the Loop's turn while it is stopped. -/
  | unchanged (e : Event) : Effect s e s
  /-- A host read (20_memory.md R47). -/
  | busRead (addr bytes : Nat) (w : Word) : Effect s (.hostRead addr bytes) (s.setBusData w)
  /-- A command refused while the loop runs, or an illegal word (60_exceptions.md R111, R112). -/
  | raised (v : Word) (err : ErrorBit) : Effect s (.hostWrite (s.blockBase + 8) 4 v) (s.raise err)
  /-- `FIND`, or an extraction in bounds (40_synchronizer.md R72, 42_decoder.md R87). -/
  | answered (v w : Word) : Effect s (.hostWrite (s.blockBase + 8) 4 v) (s.setResult w)
  /-- An extraction out of bounds (42_decoder.md R87). -/
  | outOfBounds (v : Word) : Effect s (.hostWrite (s.blockBase + 8) 4 v) ((s.raise .bounds).setResult 0)
  /-- `CLEAR` (41_frame_buffer.md R84). -/
  | cleared (v : Word) :
      Effect s (.hostWrite (s.blockBase + 8) 4 v) (((s.setBuffer []).setPosition .empty 0 0).setResult 0)
  /-- `NEXT` (41_frame_buffer.md R80). -/
  | nextCommand {v : Word} {o : FrameOutcome} (w : Word) (hv : decodeCmd v = .ok .next) (hr : s.running = false)
      (ho : nextCore s = .ok o) : Effect s (.hostWrite (s.blockBase + 8) 4 v) (o.state.setResult w)
  /-- `SNAP` (43_poller.md R101). -/
  | snapped (v : Word) : Effect s (.hostWrite (s.blockBase + 0x2C) 4 v) s.snapshot
  /-- A write to `CTRL` (43_poller.md R103). -/
  | ctrlWritten (v : Word) : Effect s (.hostWrite (s.blockBase + 0) 4 v) (s.writeCtrl v)
  /-- A write to `STATUS` (10_state.md R26). -/
  | statusWritten (v : Word) : Effect s (.hostWrite (s.blockBase + 4) 4 v) (s.clearErrors v)
  /-- The Loop's exit (43_poller.md R104). -/
  | loopExited : Effect s .loop s.exitLoop
  /-- One iteration of the running Loop (43_poller.md R104). -/
  | loopIterated {o : FrameOutcome} (hr : s.running = true) (hn : s.run = true) (ho : nextCore s = .ok o) :
      Effect s .loop o.state
  /-- An Env step (20_memory.md R39). -/
  | appended (bytes : List Byte) : Effect s (.envAppend bytes) (s.appendRx bytes)
  /-- The transport is gone (U2). -/
  | transportLost : Effect s .transportGone s.loseTransport
  /-- Reset (70_reset_and_hazards.md R126). -/
  | reset : Effect s .reset s.applyReset

/-- The busy check in front of a command adds only the refusal (30_encoding.md R60 step 1). -/
theorem whenStopped_effect {s s' : State} {v : Word} {act : State → StepResult} (h : whenStopped s act = .next s')
    (hact : s.running = false → act s = .next s' → Effect s (.hostWrite (s.blockBase + 8) 4 v) s') :
    Effect s (.hostWrite (s.blockBase + 8) 4 v) s' := by
  obtain ⟨-, rfl⟩ | ⟨hr, h⟩ := whenStopped_cases h
  · exact .raised v .busy
  · exact hact hr h

theorem extract_effect {s s' : State} {idx w : Nat} {value : State → Word} (v : Word)
    (h : extract idx w value s = .next s') : Effect s (.hostWrite (s.blockBase + 8) 4 v) s' := by
  obtain ⟨-, rfl⟩ | ⟨-, -, rfl⟩ | ⟨-, -, rfl⟩ := extract_cases h
  · exact .raised v .busy
  · exact .answered v _
  · exact .outOfBounds v

/-- What a command word written to `CMD` does. -/
theorem exec_effect {s s' : State} {v : Word} {i : Instr} (hd : decodeCmd v = .ok i) (h : exec i s = .next s') :
    Effect s (.hostWrite (s.blockBase + 8) 4 v) s' := by
  cases i with
  | nop =>
    rw [exec_nop, execNop] at h
    exact whenStopped_effect h fun _ h => by cases h; exact .unchanged _
  | next =>
    obtain ⟨-, rfl⟩ | ⟨hr, o, ho, rfl⟩ := execNext_cases h
    · exact .raised v .busy
    · exact .nextCommand _ hd hr ho
  | find idx =>
    rw [exec_find, execFind] at h
    exact whenStopped_effect h fun _ h => by cases h; exact .answered v _
  | ext8u idx => rw [exec_ext8u, execExt8u] at h; exact extract_effect v h
  | ext16u idx => rw [exec_ext16u, execExt16u] at h; exact extract_effect v h
  | ext16s idx => rw [exec_ext16s, execExt16s] at h; exact extract_effect v h
  | ext32s idx => rw [exec_ext32s, execExt32s] at h; exact extract_effect v h
  | clear =>
    rw [exec_clear, execClear] at h
    exact whenStopped_effect h fun _ h => by cases h; exact .cleared v
  | snap => exact absurd hd (decodeCmd_ne_snap v)

theorem illegalWord_effect {s s' : State} (v : Word) (h : illegalWord s = .next s') :
    Effect s (.hostWrite (s.blockBase + 8) 4 v) s' :=
  whenStopped_effect h fun _ h => by cases h; exact .raised v .illegal

theorem writeOffset_effect {s s' : State} {off : Nat} {v : Word} (h : writeOffset off v s = .next s') :
    Effect s (.hostWrite (s.blockBase + off) 4 v) s' := by
  obtain ⟨i, rfl, hd, e⟩ | ⟨rfl, e⟩ | ⟨r, rfl, -, e⟩ | ⟨rfl, e⟩ | ⟨rfl, e⟩ | ⟨-, -, -, -, e⟩ :=
    writeOffset_cases off v s <;> rw [e] at h
  · exact exec_effect hd h
  · cases h; exact .snapped v
  · exact illegalWord_effect v h
  · cases h; exact .ctrlWritten v
  · cases h; exact .statusWritten v
  · cases h; exact .unchanged _

theorem loopTurn_effect {s s' : State} (h : loopTurn s = .next s') : Effect s .loop s' := by
  obtain ⟨-, rfl⟩ | ⟨-, -, -, rfl⟩ | ⟨hr, -, hn, o, ho, rfl⟩ := loopTurn_cases h
  · exact .unchanged _
  · exact .loopExited
  · exact .loopIterated hr hn ho

theorem perform_effect {s s' : State} {e : Event} (h : perform e s = .next s') : Effect s e s' := by
  cases e with
  | hostRead addr bytes =>
    obtain ⟨off, -, rfl⟩ := hostRead_cases h
    exact .busRead addr bytes _
  | hostWrite addr bytes v =>
    obtain ⟨off, ha, hw⟩ := hostWrite_cases h
    obtain ⟨rfl, -, rfl, -⟩ := accessOffset_ok ha
    exact writeOffset_effect hw
  | loop => exact loopTurn_effect h
  | envAppend bytes => cases h; exact .appended bytes
  | transportGone => cases h; exact .transportLost
  | reset => cases h; exact .reset

/-- A step takes one event, the Loop's turn when none is pending, and makes that event's update on the state that has lost
it from `script`. -/
theorem step_effect {s s' : State} (h : step s = .next s') :
    ∃ e rest, (s.script = e :: rest ∨ s.script = [] ∧ e = .loop ∧ rest = []) ∧ Effect (s.setScript rest) e s' := by
  obtain ⟨hs, h⟩ | ⟨e, rest, hs, h⟩ := step_cases h
  · have heta : s.setScript [] = s := by rw [← hs]; rfl
    exact ⟨.loop, [], .inr ⟨hs, rfl, rfl⟩, by rw [heta]; exact loopTurn_effect h⟩
  · exact ⟨e, rest, .inl hs, perform_effect h⟩

end Sys2Proof.Machine
end

section
/-! SUPPORT. What `NextCore` leaves unchanged, and that no step moves the window, changes a parameter, or changes the
snapshot but at `SNAP` and reset (10_state.md R18, R23, 00_scope.md R7). -/

namespace Sys2Proof.Machine

/-- `t` differs from `s` at most in what `NextCore` may write (41_frame_buffer.md R79): the buffer and its position, the
published sample, the counters, `ERR_SHORT` and the transport's queue with its draws. -/
def SameOutsideNextCore (s t : State) : Prop :=
  t = { s with
    buf := t.buf, bufLen := t.bufLen, sync := t.sync, cur := t.cur, scanFrom := t.scanFrom
    pub := t.pub, pubValid := t.pubValid
    frameCnt := t.frameCnt, spuriousCnt := t.spuriousCnt, shortCnt := t.shortCnt, errShort := t.errShort
    rxq := t.rxq, draws := t.draws, drawCount := t.drawCount }

theorem SameOutsideNextCore.refl (s : State) : SameOutsideNextCore s s := rfl

theorem SameOutsideNextCore.trans {s t u : State} (hst : SameOutsideNextCore s t) (htu : SameOutsideNextCore t u) :
    SameOutsideNextCore s u := by
  unfold SameOutsideNextCore at *
  rw [htu, hst]

theorem SameOutsideNextCore.advance (start : Nat) (s : State) : SameOutsideNextCore s (advance start s) := by
  obtain ⟨t, n, -, e⟩ | ⟨t, n, -, e⟩ | ⟨n, -, e⟩ := advance_cases start s <;> rw [e] <;> rfl

theorem SameOutsideNextCore.takeFrame (s : State) : SameOutsideNextCore s (takeFrame s).state := by
  obtain ⟨-, e⟩ | ⟨-, e⟩ := takeFrame_cases s <;> rw [e] <;> exact .trans (by rfl) (.advance _ _)

theorem SameOutsideNextCore.takeIfLocked (s : State) : SameOutsideNextCore s (takeIfLocked s).state := by
  unfold Machine.takeIfLocked
  split
  · exact .takeFrame s
  · exact .refl s

theorem SameOutsideNextCore.ingest (a : Nat) (s : State) : SameOutsideNextCore s (ingest a s) := by
  cases hy : s.sync with
  | empty =>
    rw [ingest_of_empty hy]
    obtain ⟨t, n, -, e⟩ | ⟨n, -, e⟩ := ingestEmpty_cases (readBytes (ingestRequest a s) s) (s.afterRead (ingestRequest a s))
      <;> rw [e] <;> rfl
  | locked => rw [ingest_of_locked hy]; rfl
  | hunt =>
    rw [ingest_of_hunt hy]
    obtain ⟨t, n, -, e⟩ | ⟨t, n, -, e⟩ | ⟨n, -, e⟩ :=
      ingestHunt_cases (readBytes (ingestRequest a s) s) (s.afterRead (ingestRequest a s)) <;> rw [e] <;> rfl

theorem SameOutsideNextCore.nextCore {s : State} {o : FrameOutcome} (h : nextCore s = .ok o) :
    SameOutsideNextCore s o.state := by
  obtain ⟨-, -, -, rfl⟩ | ⟨-, -, rfl⟩ | ⟨-, -, -, -, rfl⟩ | ⟨-, -, -, rfl⟩ := nextCore_cases h
  · exact .refl s
  · exact .takeFrame s
  · exact .trans (.ingest _ _) (.takeFrame _)
  · exact .trans (.ingest _ _) (.takeIfLocked _)

theorem SameOutsideNextCore.window {s t : State} (h : SameOutsideNextCore s t) :
    t.blockBase = s.blockBase ∧ t.params = s.params := by
  unfold SameOutsideNextCore at h
  rw [h]
  exact ⟨rfl, rfl⟩

theorem SameOutsideNextCore.view {s t : State} (h : SameOutsideNextCore s t) :
    t.view = s.view ∧ t.viewValid = s.viewValid ∧ t.viewSeqn = s.viewSeqn := by
  unfold SameOutsideNextCore at h
  rw [h]
  exact ⟨rfl, rfl, rfl⟩

/-- No event moves the window or changes a parameter. -/
theorem Effect.window {s s' : State} {e : Event} (h : Effect s e s') :
    s'.blockBase = s.blockBase ∧ s'.params = s.params := by
  cases h with
  | nextCommand _ _ _ ho => exact (SameOutsideNextCore.nextCore ho).window
  | loopIterated _ _ ho => exact (SameOutsideNextCore.nextCore ho).window
  | raised => simp
  | outOfBounds => simp
  | _ => exact ⟨rfl, rfl⟩

/-- Settles O55. -/
theorem stepKeepsTheWindow : Obligations.StepKeepsTheWindow := by
  intro s s' h
  obtain ⟨e, rest, -, heff⟩ := step_effect h
  exact heff.window

/-- An event that changes the snapshot is a write to `SNAP`, which copies the published sample, or reset. -/
theorem Effect.view {s s' : State} {e : Event} (h : Effect s e s') :
    (s'.view = s.view ∧ s'.viewValid = s.viewValid ∧ s'.viewSeqn = s.viewSeqn) ∨
    (∃ v, e = .hostWrite (s.blockBase + 0x02C) 4 v ∧ s'.view = s.pub ∧ s'.viewValid = s.pubValid) ∨
    e = .reset := by
  cases h with
  | snapped v => exact .inr (.inl ⟨v, rfl, rfl, rfl⟩)
  | reset => exact .inr (.inr rfl)
  | nextCommand _ _ _ ho => exact .inl (SameOutsideNextCore.nextCore ho).view
  | loopIterated _ _ ho => exact .inl (SameOutsideNextCore.nextCore ho).view
  | raised => simp
  | outOfBounds => simp
  | _ => exact .inl ⟨rfl, rfl, rfl⟩

/-- Settles O56: neither the write nor the reset can be the Loop's turn, so each was the head of `script`. -/
theorem viewChangesOnlyAtSnap : Obligations.ViewChangesOnlyAtSnap := by
  intro s s' h
  obtain ⟨e, rest, hscript, heff⟩ := step_effect h
  obtain hkept | ⟨v, rfl, hview, hvalid⟩ | rfl := heff.view
  · exact .inl hkept
  · obtain hscript | ⟨-, he, -⟩ := hscript
    · exact .inr (.inl ⟨v, rest, hscript, hview, hvalid⟩)
    · cases he
  · obtain hscript | ⟨-, he, -⟩ := hscript
    · exact .inr (.inr ⟨rest, hscript⟩)
    · cases he

end Sys2Proof.Machine
end

section
/-! SUPPORT. The frame buffer's invariants: which fields they speak of, where a scan's answer stands, and that `Ingest`,
`Advance` and `NextCore` keep them (10_state.md R15, R16, R22, 41_frame_buffer.md R73 to R79). -/

namespace Sys2Proof.Machine

/-! ### The fields the invariants speak of -/

/-- `t` has the buffer, the position and the parameters of `s`. -/
structure SameFrame (s t : State) : Prop where
  buf : t.buf = s.buf
  bufLen : t.bufLen = s.bufLen
  sync : t.sync = s.sync
  cur : t.cur = s.cur
  scanFrom : t.scanFrom = s.scanFrom
  params : t.params = s.params

theorem SameFrame.bytes {s t : State} (h : SameFrame s t) : t.bytes = s.bytes := State.bytes_congr h.buf h.bufLen

theorem SameFrame.bufferWf {s t : State} (h : SameFrame s t) (hwf : BufferWf s) : BufferWf t := by
  simpa only [BufferWf, h.buf, h.bufLen] using hwf

theorem SameFrame.syncInv {s t : State} (h : SameFrame s t) (hinv : SyncInv s) : SyncInv t := by
  simpa only [SyncInv, Inv1, Inv2, Inv3, Inv4, h.bytes, h.bufLen, h.sync, h.cur, h.scanFrom, h.params] using hinv

theorem SameFrame.inRange {s t : State} (h : SameFrame s t) (hp : s.params.inRange) : t.params.inRange := by
  rwa [h.params]

/-- What an event does to the buffer and its position: nothing, `CLEAR` or reset, or one `NextCore`. -/
theorem Effect.frame {s s' : State} {e : Event} (h : Effect s e s') :
    SameFrame s s' ∨ SameFrame ((s.setBuffer []).setPosition .empty 0 0) s' ∨
    ∃ o, nextCore s = .ok o ∧ SameFrame o.state s' := by
  cases h with
  | cleared v => exact .inr (.inl ⟨rfl, rfl, rfl, rfl, rfl, rfl⟩)
  | reset => exact .inr (.inl ⟨rfl, rfl, rfl, rfl, rfl, rfl⟩)
  | nextCommand w _ _ ho => exact .inr (.inr ⟨_, ho, rfl, rfl, rfl, rfl, rfl, rfl⟩)
  | loopIterated _ _ ho => exact .inr (.inr ⟨_, ho, rfl, rfl, rfl, rfl, rfl, rfl⟩)
  | raised v err => exact .inl ⟨by simp, by simp, by simp, by simp, by simp, by simp⟩
  | _ => exact .inl ⟨rfl, rfl, rfl, rfl, rfl, rfl⟩

/-! ### The buffer's canonical form (log 6) -/

theorem bufferWf_of_ofBytes {s : State} {bytes : List Byte} (hb : s.buf = Memory.ofBytes bytes)
    (hl : s.bufLen = bytes.length) : BufferWf s := by
  rw [BufferWf, hb, hl]
  exact ⟨Memory.wf_ofBytes bytes, Memory.index_ofBytes bytes⟩

theorem advance_bufferWf (start : Nat) {s : State} (h : BufferWf s) : BufferWf (advance start s) := by
  obtain ⟨t, n, -, e⟩ | ⟨t, n, -, e⟩ | ⟨n, -, e⟩ := advance_cases start s <;> rw [e] <;> exact h

theorem takeFrame_bufferWf {s : State} (h : BufferWf s) : BufferWf (takeFrame s).state := by
  obtain ⟨-, e⟩ | ⟨-, e⟩ := takeFrame_cases s <;> rw [e] <;> exact advance_bufferWf _ h

theorem takeIfLocked_bufferWf {s : State} (h : BufferWf s) : BufferWf (takeIfLocked s).state := by
  unfold takeIfLocked
  split
  · exact takeFrame_bufferWf h
  · exact h

/-- Whatever the buffer held, an ingest sets it anew. -/
theorem ingest_bufferWf (a : Nat) (s : State) : BufferWf (ingest a s) := by
  cases hy : s.sync with
  | empty =>
    rw [ingest_of_empty hy]
    obtain ⟨t, n, -, e⟩ | ⟨n, -, e⟩ := ingestEmpty_cases (readBytes (ingestRequest a s) s) (s.afterRead (ingestRequest a s))
      <;> rw [e] <;> exact bufferWf_of_ofBytes rfl rfl
  | locked => rw [ingest_of_locked hy]; exact bufferWf_of_ofBytes rfl rfl
  | hunt =>
    rw [ingest_of_hunt hy]
    obtain ⟨t, n, -, e⟩ | ⟨t, n, -, e⟩ | ⟨n, -, e⟩ :=
      ingestHunt_cases (readBytes (ingestRequest a s) s) (s.afterRead (ingestRequest a s))
      <;> rw [e] <;> exact bufferWf_of_ofBytes rfl rfl

theorem nextCore_bufferWf {s : State} {o : FrameOutcome} (h : nextCore s = .ok o) (hwf : BufferWf s) :
    BufferWf o.state := by
  obtain ⟨-, -, -, rfl⟩ | ⟨-, -, rfl⟩ | ⟨-, -, -, -, rfl⟩ | ⟨-, -, -, rfl⟩ := nextCore_cases h
  · exact hwf
  · exact takeFrame_bufferWf hwf
  · exact takeFrame_bufferWf (ingest_bufferWf _ s)
  · exact takeIfLocked_bufferWf (ingest_bufferWf _ s)

/-- Settles O54. -/
theorem stepKeepsTheBufferForm : Obligations.StepKeepsTheBufferForm := by
  intro s s' hwf h
  obtain ⟨e, rest, -, heff⟩ := step_effect h
  obtain hsame | hsame | ⟨o, ho, hsame⟩ := heff.frame
  · exact hsame.bufferWf hwf
  · exact hsame.bufferWf (bufferWf_of_ofBytes (bytes := []) rfl rfl)
  · exact hsame.bufferWf (nextCore_bufferWf ho hwf)

/-! ### Where a scan's answer stands -/

theorem markerAt_lt {p : Params} {S : List Byte} {t : Nat} (h : markerAt p S t = true) : t < S.length := by
  have : S[t]? = some p.marker := by simpa [markerAt] using h
  exact (List.getElem?_eq_some_iff.mp this).1

/-- A scan's answer stands within the sequence, and a frame it finds is validated (40_synchronizer.md R64). -/
theorem scan_answer (p : Params) (S : List Byte) (i : Nat) :
    (∀ t n, scan p S i = (.found t, n) → validStart p S t = true) ∧
    (∀ t n, scan p S i = (.incomplete t, n) → t < S.length) := by
  obtain ⟨-, e⟩ | ⟨hi, -, e⟩ | ⟨hi, -, e⟩ | ⟨hi, hv, e⟩ | ⟨hi, -, e⟩ := scan_cases p S i
  · simp [e]
  · rw [e]
    exact scan_answer p S (i + 1)
  · rw [e]
    refine ⟨by simp, ?_⟩
    rintro t n ⟨⟩
    exact hi
  · rw [e]
    refine ⟨?_, by simp⟩
    rintro t n ⟨⟩
    exact hv
  · obtain ⟨hfound, hinc⟩ := scan_answer p S (i + 1)
    constructor
    · intro t n h
      exact hfound t _ (Prod.ext (by simpa [e] using congrArg Prod.fst h) rfl)
    · intro t n h
      exact hinc t _ (Prod.ext (by simpa [e] using congrArg Prod.fst h) rfl)
termination_by S.length - i

theorem scan_found_valid {p : Params} {S : List Byte} {i t n : Nat} (h : scan p S i = (.found t, n)) :
    validStart p S t = true := (scan_answer p S i).1 t n h

theorem scan_incomplete_lt {p : Params} {S : List Byte} {i t n : Nat} (h : scan p S i = (.incomplete t, n)) :
    t < S.length := (scan_answer p S i).2 t n h

/-- A validated frame start and its length byte stand within the sequence. -/
theorem validStart_lt {p : Params} {S : List Byte} {t : Nat} (h : validStart p S t = true) : t + p.lenOff < S.length := by
  rw [validStart, Bool.and_eq_true] at h
  obtain ⟨-, hlen⟩ := h
  cases hl : S[t + p.lenOff]? with
  | none => rw [hl] at hlen; cases hlen
  | some len => exact (List.getElem?_eq_some_iff.mp hl).1

/-- New bytes behind a sequence keep its validated frame starts (41_frame_buffer.md R73). -/
theorem validStart_append {p : Params} {S : List Byte} {t : Nat} (T : List Byte) (h : validStart p S t = true) :
    validStart p (S ++ T) t = true := by
  have hkept : ∀ (k : Nat) (b : Byte), S[k]? = some b → (S ++ T)[k]? = some b := fun k b hk => by
    rw [List.getElem?_append_left (List.getElem?_eq_some_iff.mp hk).1, hk]
  simp only [validStart, markerAt, Bool.and_eq_true, beq_iff_eq] at h ⊢
  obtain ⟨hmarker, hlen⟩ := h
  refine ⟨hkept _ _ hmarker, ?_⟩
  cases hl : S[t + p.lenOff]? with
  | none => rw [hl] at hlen; cases hlen
  | some len =>
    rw [hl] at hlen
    rw [hkept _ _ hl]
    simpa using hkept _ _ (by simpa using hlen)

/-! ### INV1 to INV4 -/

/-- INV1 to INV4 of a LOCKED state. -/
theorem syncInv_of_locked {s : State} (hy : s.sync = .locked) (hf : s.scanFrom = 0)
    (hv : validStart s.params s.bytes s.cur.toNat = true) (hcap : s.bufLen ≤ s.params.bufCap) : SyncInv s :=
  ⟨by simp [hy], fun _ => ⟨hf, by simpa using validStart_lt hv, hv⟩, by simp [hy], hcap⟩

/-- INV1 to INV4 of a HUNT state. -/
theorem syncInv_of_hunt {s : State} (hy : s.sync = .hunt) (hc : s.cur = 0) (hf : s.scanFrom.toNat ≤ s.bufLen)
    (hcap : s.bufLen ≤ s.params.bufCap) : SyncInv s :=
  ⟨by simp [hy], by simp [hy], fun _ => ⟨hc, hf⟩, hcap⟩

/-- INV1 to INV4 of an EMPTY state. -/
theorem syncInv_of_empty {s : State} (hy : s.sync = .empty) (hl : s.bufLen = 0) (hc : s.cur = 0) (hf : s.scanFrom = 0) :
    SyncInv s :=
  ⟨fun _ => ⟨hl, hc, hf⟩, by simp [hy], by simp [hy], by simp [hl]⟩

theorem cleared_syncInv (s : State) : SyncInv ((s.setBuffer []).setPosition .empty 0 0) :=
  syncInv_of_empty rfl rfl rfl rfl

/-- An index of the buffer is exact in the 16 bits of `CUR` and `SCAN_FROM` (00_scope.md R8). -/
theorem toNat_ofNat_index {s : State} {t : Nat} (hp : s.params.inRange) (hcap : s.bufLen ≤ s.params.bufCap)
    (ht : t ≤ s.bufLen) : (BitVec.ofNat 16 t).toNat = t := by
  obtain ⟨-, hmax⟩ := hp
  rw [BitVec.toNat_ofNat]
  omega

/-- `Advance` in a LOCKED state goes to the next validated frame or to HUNT (41_frame_buffer.md R78). -/
theorem advance_syncInv (start : Nat) {s : State} (hp : s.params.inRange) (hy : s.sync = .locked) (hinv : SyncInv s) :
    SyncInv (advance start s) := by
  obtain ⟨-, hlocked, -, hcap⟩ := hinv
  obtain ⟨hf, -, -⟩ := hlocked hy
  obtain ⟨t, n, hs, e⟩ | ⟨t, n, hs, e⟩ | ⟨n, hs, e⟩ := advance_cases start s <;> rw [e]
  · have hv := scan_found_valid hs
    have ht : t ≤ s.bufLen := by
      have hlt := validStart_lt hv
      rw [State.bytes_length] at hlt
      omega
    exact syncInv_of_locked hy (by simp [hf]) (by simpa [toNat_ofNat_index hp hcap ht] using hv) hcap
  · have ht : t ≤ s.bufLen := by simpa using (scan_incomplete_lt hs).le
    exact syncInv_of_hunt rfl rfl (by simpa only [State.setPosition_scanFrom, toNat_ofNat_index hp hcap ht]) hcap
  · exact syncInv_of_hunt rfl rfl (by simp [Nat.mod_le]) hcap

theorem takeFrame_syncInv {s : State} (hp : s.params.inRange) (hy : s.sync = .locked) (hinv : SyncInv s) :
    SyncInv (takeFrame s).state := by
  obtain ⟨-, e⟩ | ⟨-, e⟩ := takeFrame_cases s <;> rw [e]
  · exact advance_syncInv _ hp hy (SameFrame.syncInv ⟨rfl, rfl, rfl, rfl, rfl, rfl⟩ hinv)
  · exact advance_syncInv _ hp hy (SameFrame.syncInv ⟨rfl, rfl, rfl, rfl, rfl, rfl⟩ hinv)

theorem takeIfLocked_syncInv {s : State} (hp : s.params.inRange) (hinv : SyncInv s) : SyncInv (takeIfLocked s).state := by
  unfold takeIfLocked
  split
  · next hy => exact takeFrame_syncInv hp hy hinv
  · exact hinv

/-- What an ingest keeps and reads fits in the buffer (41_frame_buffer.md R73). -/
theorem retained_add_read_le (a : Nat) {s : State} (hcap : s.bufLen ≤ s.params.bufCap) :
    (retained s ++ readBytes (ingestRequest a s) s).length ≤ s.params.bufCap := by
  have hread := (readCount_le (ingestRequest a s) s).1
  have hkeep : (retained s).length ≤ s.bufLen := by
    rw [retained_length]
    cases s.sync <;> simp
  have hrequest : ingestRequest a s ≤ s.params.bufCap - (retained s).length := Nat.min_le_right _ _
  simp only [List.length_append, readBytes_length]
  omega

/-- An ingest that finds a frame stands LOCKED on the first byte of the new buffer. -/
theorem found_syncInv {s : State} {b : List Byte} {t n : Nat} (hs : scan s.params b 0 = (.found t, n))
    (hcap : b.length ≤ s.params.bufCap) (m : Nat) :
    SyncInv (((s.addSpurious m).setBuffer (b.drop t)).setPosition .locked 0 0) :=
  syncInv_of_locked rfl rfl (by simpa [validStart_drop] using scan_found_valid hs)
    (by simp only [State.setPosition_bufLen, State.setBuffer_bufLen, List.length_drop]; exact (Nat.sub_le _ _).trans hcap)

theorem ingest_syncInv (a : Nat) {s : State} (hinv : SyncInv s) : SyncInv (ingest a s) := by
  obtain ⟨hempty, hlocked, hhunt, hcap⟩ := hinv
  have hfit := retained_add_read_le a hcap
  cases hy : s.sync with
  | empty =>
    obtain ⟨hl, hc, hf⟩ := hempty hy
    simp only [retained, hy, List.nil_append] at hfit
    rw [ingest_of_empty hy]
    obtain ⟨t, n, hs, e⟩ | ⟨n, -, e⟩ :=
      ingestEmpty_cases (readBytes (ingestRequest a s) s) (s.afterRead (ingestRequest a s)) <;> rw [e]
    · simpa [hf] using found_syncInv hs hfit n
    · exact syncInv_of_empty hy rfl hc hf
  | locked =>
    obtain ⟨hf, -, hv⟩ := hlocked hy
    simp only [retained, hy] at hfit
    rw [ingest_of_locked hy]
    refine syncInv_of_locked hy (by simp [ingestLocked, hf]) ?_ hfit
    have hdrop : validStart s.params (s.bytes.drop s.cur.toNat) 0 = true := by simpa [validStart_drop] using hv
    simpa [ingestLocked] using validStart_append _ hdrop
  | hunt =>
    obtain ⟨hc, -⟩ := hhunt hy
    simp only [retained, hy] at hfit
    rw [ingest_of_hunt hy]
    obtain ⟨t, n, hs, e⟩ | ⟨t, n, -, e⟩ | ⟨n, -, e⟩ :=
      ingestHunt_cases (readBytes (ingestRequest a s) s) (s.afterRead (ingestRequest a s)) <;> rw [e]
    · exact found_syncInv hs hfit n
    · exact syncInv_of_hunt rfl (by simp [hc]) (Nat.zero_le _)
        (by simp only [State.setPosition_bufLen, State.setBuffer_bufLen, List.length_drop]
            exact (Nat.sub_le _ _).trans hfit)
    · exact syncInv_of_hunt rfl (by simp [hc]) (Nat.zero_le _) (Nat.zero_le _)

theorem ingest_inRange (a : Nat) {s : State} (hp : s.params.inRange) : (ingest a s).params.inRange := by
  rwa [(SameOutsideNextCore.ingest a s).window.2]

/-- After an ingest LOCKED stays LOCKED (41_frame_buffer.md R73). -/
theorem ingest_sync_of_locked (a : Nat) {s : State} (hy : s.sync = .locked) : (ingest a s).sync = .locked := by
  rw [ingest_of_locked hy]
  exact hy

theorem nextCore_syncInv {s : State} {o : FrameOutcome} (h : nextCore s = .ok o) (hp : s.params.inRange)
    (hinv : SyncInv s) : SyncInv o.state := by
  obtain ⟨-, -, -, rfl⟩ | ⟨hy, -, rfl⟩ | ⟨-, -, hy, -, rfl⟩ | ⟨-, -, -, rfl⟩ := nextCore_cases h
  · exact hinv
  · exact takeFrame_syncInv hp hy hinv
  · exact takeFrame_syncInv (ingest_inRange _ hp) (ingest_sync_of_locked _ hy) (ingest_syncInv _ hinv)
  · exact takeIfLocked_syncInv (ingest_inRange _ hp) (ingest_syncInv _ hinv)

/-- (INV5) of 10_state.md R22, in the model's reading of it (log 14). -/
theorem inv5 (s : State) : Inv5 s := by
  intro hr
  simp [loopDisabled, loopTurn, hr]

/-- Settles O51: an event that moves the buffer or its position is `CLEAR`, reset or one `NextCore`. -/
theorem stepKeepsTheSyncInvariants : Obligations.StepKeepsTheSyncInvariants := by
  refine ⟨fun s s' hp hinv h => ?_, inv5⟩
  obtain ⟨e, rest, -, heff⟩ := step_effect h
  obtain hsame | hsame | ⟨o, ho, hsame⟩ := heff.frame
  · exact hsame.syncInv hinv
  · exact hsame.syncInv (cleared_syncInv _)
  · exact hsame.syncInv (nextCore_syncInv ho hp hinv)

end Sys2Proof.Machine
end

section
/-! SUPPORT. The register map as the host sees it: what each read returns and what each write of a register does
(10_state.md R24 to R35), and the invariants at reset (R22). -/

namespace Sys2Proof.Machine

/-! ### Reads -/

@[simp] theorem readOffset_regOffset (r : Reg) (s : State) : readOffset (regOffset r) s = readReg r s := by
  simp [readOffset]

/-- A host read of a register at its address (20_memory.md R47). -/
theorem hostRead_regOffset {s : State} (hb : s.blockBase % 4 = 0) (r : Reg) :
    hostRead (s.blockBase + regOffset r) 4 s = .next (s.setBusData (readReg r s)) := by
  obtain ⟨hwindow, haligned⟩ := regOffset_lt r
  rw [hostRead_reg hb hwindow haligned, readOffset_regOffset]

/-- A host read of a register whose value is known. -/
theorem hostRead_of_readReg {s : State} (hb : s.blockBase % 4 = 0) (r : Reg) {w : Word} (hw : readReg r s = w) :
    hostRead (s.blockBase + regOffset r) 4 s = .next { s with busData := w } := by
  rw [hostRead_regOffset hb, hw]
  rfl

/-- The named registers stand at 0x000 to 0x030 and at 0x040 to 0x09C (10_state.md R23). -/
theorem regOffset_range (r : Reg) : regOffset r < 0x034 ∨ 0x040 ≤ regOffset r ∧ regOffset r < 0x0A0 := by
  cases r with
  | view f => cases f <;> decide
  | _ => decide

/-- The offsets between and beyond the named registers are reserved (10_state.md R24). -/
theorem regAt_of_reserved {off : Nat} (h : (0x034 ≤ off ∧ off < 0x040) ∨ 0x0A0 ≤ off) : regAt off = none := by
  cases hr : regAt off with
  | none => rfl
  | some r =>
    have hrange := regOffset_range r
    rw [regOffset_of_regAt hr] at hrange
    omega

/-- Settles O45. -/
theorem reservedOffsetsAndReadOnlyRegisters : Obligations.ReservedOffsetsAndReadOnlyRegisters := by
  intro s off hb hwindow haligned
  constructor
  · intro h0 h4 h8 h2c v
    rw [hostWrite_reg hb hwindow haligned]
    obtain ⟨i, e, -⟩ | ⟨e, -⟩ | ⟨r, e, -⟩ | ⟨e, -⟩ | ⟨e, -⟩ | ⟨-, -, -, -, e⟩ := writeOffset_cases off v s
    · exact absurd e h8
    · exact absurd e h2c
    · exact absurd e h8
    · exact absurd e h0
    · exact absurd e h4
    · exact e
  · intro hreserved
    rw [hostRead_reg hb hwindow haligned, readOffset, regAt_of_reserved hreserved]
    rfl

/-- Settles O39. -/
theorem snapCopiesThePublishedSample : Obligations.SnapCopiesThePublishedSample := by
  intro s
  refine ⟨?_, fun hb => ⟨fun v => ?_, hostRead_of_readReg hb .snap rfl⟩⟩
  · have hseq : s.frameCnt.setWidth 31 = BitVec.ofNat 31 (s.frameCnt.toNat % 2 ^ 31) :=
      BitVec.eq_of_toNat_eq (by simp)
    rw [exec_snap, execSnap, State.snapshot, hseq]
  · exact hostWrite_of_decode_ok hb (decode_snap v)

/-! ### `STATUS` -/

/-- The fields of `STATUS` at their bits (10_state.md R26). -/
theorem statusWord_fields (s : State) :
    (statusWord s).getLsbD 0 = s.running ∧ (statusWord s).getLsbD 1 = s.pubValid ∧
    (statusWord s).extractLsb' 2 2 = syncCode s.sync ∧
    (statusWord s).getLsbD 4 = s.errBusy ∧ (statusWord s).getLsbD 5 = s.errIllegal ∧
    (statusWord s).getLsbD 6 = s.errBounds ∧ (statusWord s).getLsbD 7 = s.errShort ∧
    (statusWord s).extractLsb' 8 24 = 0 := by
  refine ⟨?_, ?_, ?_, ?_, ?_, ?_, ?_, ?_⟩
  case refine_3 =>
    apply BitVec.eq_of_getLsbD_eq
    intro i hi
    simp (disch := omega) only [statusWord, BitVec.getLsbD_extractLsb', BitVec.getLsbD_append, if_neg]
    simp [hi]
  case refine_8 =>
    apply BitVec.eq_of_getLsbD_eq
    intro i hi
    simp (disch := omega) only [statusWord, BitVec.getLsbD_extractLsb', BitVec.getLsbD_append, if_neg]
    simp
  all_goals
    simp only [statusWord, BitVec.getLsbD_append]
    simp

/-- A write of `v` to `STATUS` takes 0 for each error bit written 1 (10_state.md R26). -/
theorem clearErrors_eq (v : Word) (s : State) :
    s.clearErrors v = { s with
      errBusy := if v.getLsbD 4 then false else s.errBusy
      errIllegal := if v.getLsbD 5 then false else s.errIllegal
      errBounds := if v.getLsbD 6 then false else s.errBounds
      errShort := if v.getLsbD 7 then false else s.errShort } := by
  have hw1c : ∀ err bit : Bool, (err && !bit) = if bit then false else err := by decide
  simp only [State.clearErrors, hw1c]

/-- Settles O42. -/
theorem statusReadsAndClears : Obligations.StatusReadsAndClears := by
  intro s hb
  refine ⟨⟨statusWord s, hostRead_of_readReg hb .status rfl, ?_⟩, fun v => ?_⟩
  · exact statusWord_fields s
  · rw [hostWrite_reg hb (by decide) (by decide), ← clearErrors_eq]
    rfl

/-! ### The state registers -/

theorem cursorWord_eq (s : State) :
    cursorWord s = BitVec.ofBool (decide (s.sync = .locked)) ++ (0 : BitVec 15) ++ s.cur := by
  have hflag : (if s.sync = .locked then (1 : Word) else 0) =
      (BitVec.ofBool (decide (s.sync = .locked))).setWidth 32 := by
    split <;> simp [*]
  have happend := BitVec.setWidth_append_append_eq_shiftLeft_setWidth_or (w''' := 32)
    (b := BitVec.ofBool (decide (s.sync = .locked))) (b' := (0 : BitVec 15)) (b'' := s.cur)
  calc cursorWord s
    _ = _ ||| 0 <<< 16 ||| _ := by rw [cursorWord, hflag, zext32]; simp
    _ = (BitVec.ofBool (decide (s.sync = .locked)) ++ (0 : BitVec 15) ++ s.cur).setWidth 32 := happend.symm
    _ = _ := BitVec.setWidth_eq _

theorem viewSeqWord_eq (s : State) : viewSeqWord s = BitVec.ofBool s.viewValid ++ s.viewSeqn := by
  have happend := BitVec.setWidth_append_eq_shiftLeft_setWidth_or (w'' := 32)
    (b := BitVec.ofBool s.viewValid) (b' := s.viewSeqn)
  rw [viewSeqWord, zext32, zext32, ← happend]
  exact BitVec.setWidth_eq _

/-- A length that fits in 16 bits reads in full (10_state.md R30, 00_scope.md R8). -/
theorem zext32_ofNat_half {n : Nat} (hn : n ≤ 65535) : zext32 (BitVec.ofNat 16 n) = BitVec.ofNat 32 n := by
  apply BitVec.eq_of_toNat_eq
  rw [zext32, BitVec.toNat_setWidth, BitVec.toNat_ofNat, BitVec.toNat_ofNat]
  omega

theorem zext32_ofBool (b : Bool) : zext32 (BitVec.ofBool b) = (0 : BitVec 31) ++ BitVec.ofBool b :=
  BitVec.setWidth_eq_append (by decide)

theorem zext32_half (v : Half) : zext32 v = (0 : BitVec 16) ++ v := BitVec.setWidth_eq_append (by decide)

/-- A counter is a full word. -/
theorem zext32_word (w : Word) : zext32 w = w := BitVec.setWidth_eq w

/-- Settles O43. -/
theorem registersReadTheirState : Obligations.RegistersReadTheirState := by
  intro s hb
  refine ⟨?_, ?_, ?_, ?_, fun hp hcap => ?_, ?_, ?_, ?_, ?_, ?_, ?_⟩
  · exact hostRead_of_readReg hb .ctrl (zext32_ofBool _)
  · exact hostRead_of_readReg hb .cmd rfl
  · exact hostRead_of_readReg hb .result rfl
  · exact hostRead_of_readReg hb .cursor (cursorWord_eq s)
  · exact hostRead_of_readReg hb .bufLen (zext32_ofNat_half (hcap.trans hp.2))
  · exact hostRead_of_readReg hb .scanFrom (zext32_half _)
  · exact hostRead_of_readReg hb .frameCnt (zext32_word _)
  · exact hostRead_of_readReg hb .spuriousCnt (zext32_word _)
  · exact hostRead_of_readReg hb .shortCnt (zext32_word _)
  · exact hostRead_of_readReg hb .bufCap rfl
  · exact hostRead_of_readReg hb .viewSeq (viewSeqWord_eq s)

/-- The `VIEW_*` registers stand word after word in the order of the fields (10_state.md R35). -/
theorem viewOffset_of_index {k : Nat} {f : Field} (h : allFields[k]? = some f) : viewOffset f = 0x040 + 4 * k := by
  have hmap : allFields.map viewOffset = (List.range 24).map (0x040 + 4 * ·) := by decide
  have hk : k < 24 := (List.getElem?_eq_some_iff.mp h).1
  have hoffset := congrArg (·[k]?) hmap
  simpa [h, hk] using hoffset

/-- Settles O44. -/
theorem viewRegistersReadTheSnapshot : Obligations.ViewRegistersReadTheSnapshot := by
  intro s k f hb hfield
  rw [← viewOffset_of_index hfield]
  exact hostRead_of_readReg hb (.view f) rfl

/-! ### Reset -/

theorem reset_syncInv : SyncInv State.reset := syncInv_of_empty rfl rfl rfl rfl

/-- This hardware's fields lie within the first `MIN_FRAME` bytes (42_decoder.md R92). -/
theorem hardware_fieldsFit : FieldsFit Config.hardware := by
  intro f
  cases f <;> decide

/-- Settles O50. -/
theorem invariantsHoldAtReset : Obligations.InvariantsHoldAtReset := by
  refine ⟨reset_syncInv, ?_, bufferWf_of_ofBytes (bytes := []) rfl rfl, rfl, rfl, hardware_fieldsFit, ?_, ?_⟩
  · intro hhunt
    cases hhunt
  · decide
  · decide

end Sys2Proof.Machine
end

section
/-! SUPPORT. The host's accesses of the window (20_memory.md R44, R47): the faults of an unsupported one, and that a read
has no side effect. -/

namespace Sys2Proof.Machine

/-! ### Unsupported accesses (20_memory.md R44, U1) -/

/-- The faults of an access within the window: its width is checked before its alignment (log 8). -/
theorem accessOffset_fault {s : State} {addr bytes : Nat} (hlo : s.blockBase ≤ addr) (hhi : addr < s.blockBase + 4096) :
    (bytes ≠ 4 → accessOffset addr bytes s = .error .accessWidth) ∧
    (bytes = 4 → addr % 4 ≠ 0 → accessOffset addr bytes s = .error .misaligned) := by
  have hwindow : ¬ (addr < s.blockBase ∨ s.blockBase + Config.windowSize ≤ addr) := by
    rw [Config.windowSize]
    omega
  constructor
  · intro hwidth
    rw [accessOffset, if_neg hwindow, if_pos hwidth]
  · intro hwidth halign
    rw [accessOffset, if_neg hwindow, if_neg (not_not.mpr hwidth), if_pos halign]

theorem hostRead_of_error {s : State} {addr bytes : Nat} {f : Fault} (h : accessOffset addr bytes s = .error f) :
    hostRead addr bytes s = .fault f := by simp only [hostRead, h]

theorem hostWrite_of_error {s : State} {addr bytes : Nat} {f : Fault} (v : Word)
    (h : accessOffset addr bytes s = .error f) : hostWrite addr bytes v s = .fault f := by simp only [hostWrite, h]

/-- Settles O47. -/
theorem unsupportedHostAccessesFault : Obligations.UnsupportedHostAccessesFault := by
  intro s addr bytes v hlo hhi
  obtain ⟨hwidth, halign⟩ := accessOffset_fault (bytes := bytes) hlo hhi
  exact ⟨fun h => ⟨hostRead_of_error (hwidth h), hostWrite_of_error v (hwidth h)⟩,
    fun h h4 => ⟨hostRead_of_error (halign h h4), hostWrite_of_error v (halign h h4)⟩⟩

/-! ### Reads (20_memory.md R47) -/

/-- No register shows the value an earlier read returned. -/
@[simp] theorem readReg_setBusData (r : Reg) (w : Word) (s : State) : readReg r (s.setBusData w) = readReg r s := by
  cases r <;> rfl

@[simp] theorem readOffset_setBusData (off : Nat) (w : Word) (s : State) :
    readOffset off (s.setBusData w) = readOffset off s := by
  unfold readOffset
  cases regAt off <;> simp

@[simp] theorem accessOffset_setBusData (addr bytes : Nat) (w : Word) (s : State) :
    accessOffset addr bytes (s.setBusData w) = accessOffset addr bytes s := rfl

theorem hostRead_of_ok {s : State} {addr bytes off : Nat} (h : accessOffset addr bytes s = .ok off) :
    hostRead addr bytes s = .next (s.setBusData (readOffset off s)) := by simp only [hostRead, h]

/-- Settles O46. -/
theorem hostReadsHaveNoSideEffect : Obligations.HostReadsHaveNoSideEffect := by
  intro s s' addr bytes h
  obtain ⟨off, ha, rfl⟩ := hostRead_cases h
  refine ⟨rfl, ?_⟩
  rw [hostRead_of_ok (off := off) (by rw [accessOffset_setBusData, ha]), readOffset_setBusData]
  rfl

end Sys2Proof.Machine
end

section
/-! SUPPORT. The bytes of a wider field, in the order of 20_memory.md R40, and the narrower extractions inside it (R41). -/

namespace Sys2Proof.Machine

/-- Bit `b` of a 16-bit field is bit `b % 8` of its byte `b / 8` (20_memory.md R40). -/
theorem getLsbD_get16 (s : State) (i : Nat) {b : Nat} (hb : b < 16) :
    (get16 s i).getLsbD b = (get8 s (i + b / 8)).getLsbD (b % 8) := by
  rw [get16, BitVec.getLsbD_append]
  by_cases h8 : b < 8
  · simp [h8, Nat.div_eq_of_lt h8, Nat.mod_eq_of_lt h8]
  · simp [h8, show b / 8 = 1 by omega, show b - 8 = b % 8 by omega]

/-- A 32-bit field is two 16-bit fields, the low half first. -/
theorem get32_eq_append (s : State) (i : Nat) : get32 s i = get16 s (i + 2) ++ get16 s i :=
  BitVec.append_assoc ..

/-- Bit `b` of a 32-bit field is bit `b % 8` of its byte `b / 8` (20_memory.md R40). -/
theorem getLsbD_get32 (s : State) (i : Nat) {b : Nat} (hb : b < 32) :
    (get32 s i).getLsbD b = (get8 s (i + b / 8)).getLsbD (b % 8) := by
  rw [get32_eq_append, BitVec.getLsbD_append]
  by_cases h16 : b < 16
  · rw [if_pos h16, getLsbD_get16 s i h16]
  · rw [if_neg h16, getLsbD_get16 s (i + 2) (by omega)]
    rw [show i + 2 + (b - 16) / 8 = i + b / 8 by omega, show (b - 16) % 8 = b % 8 by omega]

/-- Byte `j` of a 16-bit field. -/
theorem extractLsb'_get16_byte (s : State) (i : Nat) {j : Nat} (hj : j < 2) :
    (get16 s i).extractLsb' (8 * j) 8 = get8 s (i + j) := by
  apply BitVec.eq_of_getLsbD_eq
  intro b hb
  rw [BitVec.getLsbD_extractLsb', getLsbD_get16 s i (by omega)]
  simp [hb, show (8 * j + b) / 8 = j by omega, show (8 * j + b) % 8 = b by omega]

/-- Byte `j` of a 32-bit field. -/
theorem extractLsb'_get32_byte (s : State) (i : Nat) {j : Nat} (hj : j < 4) :
    (get32 s i).extractLsb' (8 * j) 8 = get8 s (i + j) := by
  apply BitVec.eq_of_getLsbD_eq
  intro b hb
  rw [BitVec.getLsbD_extractLsb', getLsbD_get32 s i (by omega)]
  simp [hb, show (8 * j + b) / 8 = j by omega, show (8 * j + b) % 8 = b by omega]

/-- The two bytes from byte `j` of a 32-bit field on. -/
theorem extractLsb'_get32_half (s : State) (i : Nat) {j : Nat} (hj : j < 3) :
    (get32 s i).extractLsb' (8 * j) 16 = get16 s (i + j) := by
  apply BitVec.eq_of_getLsbD_eq
  intro b hb
  rw [BitVec.getLsbD_extractLsb', getLsbD_get32 s i (by omega), getLsbD_get16 s (i + j) hb]
  simp [hb, show i + (8 * j + b) / 8 = i + j + b / 8 by omega]

/-- An extraction in bounds while the loop is stopped changes `RESULT` only (42_decoder.md R87). -/
theorem extract_of_inBounds {s : State} {idx w : Nat} (value : State → Word) (hr : s.running = false)
    (hb : idx + w ≤ s.bufLen) : extract idx w value s = .next (s.setResult (value s)) := by
  simp [extract, whenStopped_of_stopped hr, inBounds, hb]

theorem ext8u_of_inBounds {s : State} {idx : Nat} (hr : s.running = false) (hb : idx + 1 ≤ s.bufLen) :
    exec (.ext8u idx) s = .next (s.setResult (zext32 (get8 s idx))) :=
  extract_of_inBounds (fun s => zext32 (get8 s idx)) hr hb

theorem ext16u_of_inBounds {s : State} {idx : Nat} (hr : s.running = false) (hb : idx + 2 ≤ s.bufLen) :
    exec (.ext16u idx) s = .next (s.setResult (zext32 (get16 s idx))) :=
  extract_of_inBounds (fun s => zext32 (get16 s idx)) hr hb

theorem ext16s_of_inBounds {s : State} {idx : Nat} (hr : s.running = false) (hb : idx + 2 ≤ s.bufLen) :
    exec (.ext16s idx) s = .next (s.setResult (sext32 (get16 s idx))) :=
  extract_of_inBounds (fun s => sext32 (get16 s idx)) hr hb

theorem ext32s_of_inBounds {s : State} {idx : Nat} (hr : s.running = false) (hb : idx + 4 ≤ s.bufLen) :
    exec (.ext32s idx) s = .next (s.setResult (get32 s idx)) :=
  extract_of_inBounds (fun s => get32 s idx) hr hb

/-- Settles O15: the 32-bit value is `get32` at `idx`, the 16-bit one `get16`, and each narrower extraction is in bounds
because the wider one is. -/
theorem narrowExtractionsSeeTheWideField : Obligations.NarrowExtractionsSeeTheWideField := by
  intro s idx hr
  refine ⟨fun hb => ⟨get32 s idx, ?_, fun j hj => ⟨?_, ?_⟩, fun j hj => ?_⟩,
    fun hb => ⟨get16 s idx, ?_, ?_, fun j hj => ?_⟩⟩
  · exact ext32s_of_inBounds hr hb
  · rw [extractLsb'_get32_half s idx hj]
    exact ext16u_of_inBounds hr (by omega)
  · rw [extractLsb'_get32_half s idx hj]
    exact ext16s_of_inBounds hr (by omega)
  · rw [extractLsb'_get32_byte s idx hj]
    exact ext8u_of_inBounds hr (by omega)
  · exact ext16u_of_inBounds hr hb
  · exact ext16s_of_inBounds hr hb
  · rw [extractLsb'_get16_byte s idx hj]
    exact ext8u_of_inBounds hr (by omega)

end Sys2Proof.Machine
end

section
/-! SUPPORT. The published sample and the transport's queue: `NextCore` publishes at most once and reads at most once, and
no other event but reset and an Env step moves either (20_memory.md R38, R39, R50, 43_poller.md R106). -/

namespace Sys2Proof.Machine

/-- `t` has the published sample with its count, the transport's queue and the parameters of `s`. -/
structure SameSampleAndQueue (s t : State) : Prop where
  pub : t.pub = s.pub
  pubValid : t.pubValid = s.pubValid
  frameCnt : t.frameCnt = s.frameCnt
  rxq : t.rxq = s.rxq
  params : t.params = s.params

theorem SameSampleAndQueue.refl (s : State) : SameSampleAndQueue s s := ⟨rfl, rfl, rfl, rfl, rfl⟩

theorem SameSampleAndQueue.trans {s t u : State} (hst : SameSampleAndQueue s t) (htu : SameSampleAndQueue t u) :
    SameSampleAndQueue s u :=
  ⟨htu.pub.trans hst.pub, htu.pubValid.trans hst.pubValid, htu.frameCnt.trans hst.frameCnt, htu.rxq.trans hst.rxq,
    htu.params.trans hst.params⟩

theorem SameSampleAndQueue.publish {s t : State} (h : SameSampleAndQueue s t) (p : Sample) :
    SameSampleAndQueue (s.publish p) (t.publish p) :=
  ⟨rfl, rfl, by simp [h.frameCnt, h.params], h.rxq, h.params⟩

/-! ### Advance, Ingest and NextCore -/

theorem advance_sameSampleAndQueue (start : Nat) (s : State) : SameSampleAndQueue s (advance start s) := by
  obtain ⟨t, n, -, e⟩ | ⟨t, n, -, e⟩ | ⟨n, -, e⟩ := advance_cases start s <;> rw [e] <;>
    exact ⟨rfl, rfl, rfl, rfl, rfl⟩

/-- An ingest moves the queue by its one `Read` only (41_frame_buffer.md R73). -/
theorem ingest_sameSampleAndQueue (a : Nat) (s : State) :
    SameSampleAndQueue (s.afterRead (ingestRequest a s)) (ingest a s) := by
  cases hy : s.sync with
  | empty =>
    rw [ingest_of_empty hy]
    obtain ⟨t, n, -, e⟩ | ⟨n, -, e⟩ :=
      ingestEmpty_cases (readBytes (ingestRequest a s) s) (s.afterRead (ingestRequest a s)) <;> rw [e] <;>
      exact ⟨rfl, rfl, rfl, rfl, rfl⟩
  | locked => rw [ingest_of_locked hy]; exact ⟨rfl, rfl, rfl, rfl, rfl⟩
  | hunt =>
    rw [ingest_of_hunt hy]
    obtain ⟨t, n, -, e⟩ | ⟨t, n, -, e⟩ | ⟨n, -, e⟩ :=
      ingestHunt_cases (readBytes (ingestRequest a s) s) (s.afterRead (ingestRequest a s)) <;> rw [e] <;>
      exact ⟨rfl, rfl, rfl, rfl, rfl⟩

/-- `t` is `s` as far as the sample and the queue go, or `s` after one publish. -/
def PublishesAtMostOnce (s t : State) : Prop := SameSampleAndQueue s t ∨ ∃ p, SameSampleAndQueue (s.publish p) t

theorem PublishesAtMostOnce.of_same {s t u : State} (hst : SameSampleAndQueue s t) (htu : PublishesAtMostOnce t u) :
    PublishesAtMostOnce s u := by
  obtain hsame | ⟨p, hpublish⟩ := htu
  · exact .inl (hst.trans hsame)
  · exact .inr ⟨p, (hst.publish p).trans hpublish⟩

/-- What one publish leaves in the registers (43_poller.md R100, 60_exceptions.md R118). -/
theorem PublishesAtMostOnce.registers {s t : State} (h : PublishesAtMostOnce s t) :
    (t.pub = s.pub ∧ t.pubValid = s.pubValid ∧ t.frameCnt = s.frameCnt) ∨
    (t.pubValid = true ∧ t.frameCnt = counterAfter s.params s.frameCnt 1) := by
  obtain hsame | ⟨p, hpublish⟩ := h
  · exact .inl ⟨hsame.pub, hsame.pubValid, hsame.frameCnt⟩
  · exact .inr ⟨hpublish.pubValid, hpublish.frameCnt⟩

theorem PublishesAtMostOnce.rxq {s t : State} (h : PublishesAtMostOnce s t) : t.rxq = s.rxq := by
  obtain hsame | ⟨p, hpublish⟩ := h
  · exact hsame.rxq
  · exact hpublish.rxq

theorem raise_countShort_sameSampleAndQueue (e : ErrorBit) (s : State) :
    SameSampleAndQueue s (s.raise e).countShort := by
  cases e <;> exact ⟨rfl, rfl, rfl, rfl, rfl⟩

theorem takeFrame_publishesAtMostOnce (s : State) : PublishesAtMostOnce s (takeFrame s).state := by
  obtain ⟨-, e⟩ | ⟨-, e⟩ := takeFrame_cases s <;> rw [e]
  · exact .inr ⟨_, advance_sameSampleAndQueue _ _⟩
  · exact .inl ((raise_countShort_sameSampleAndQueue .short s).trans (advance_sameSampleAndQueue _ _))

theorem takeIfLocked_publishesAtMostOnce (s : State) : PublishesAtMostOnce s (takeIfLocked s).state := by
  unfold takeIfLocked
  split
  · exact takeFrame_publishesAtMostOnce s
  · exact .inl (.refl s)

/-- `NextCore` publishes at most once, with or without one `Read` before it (41_frame_buffer.md R79). -/
theorem nextCore_publishesAtMostOnce {s : State} {o : FrameOutcome} (h : nextCore s = .ok o) :
    PublishesAtMostOnce s o.state ∨ ∃ n, PublishesAtMostOnce (s.afterRead n) o.state := by
  obtain ⟨-, -, -, rfl⟩ | ⟨-, -, rfl⟩ | ⟨-, -, -, -, rfl⟩ | ⟨-, -, -, rfl⟩ := nextCore_cases h
  · exact .inl (.inl (.refl s))
  · exact .inl (takeFrame_publishesAtMostOnce s)
  · exact .inr ⟨_, .of_same (ingest_sameSampleAndQueue _ s) (takeFrame_publishesAtMostOnce _)⟩
  · exact .inr ⟨_, .of_same (ingest_sameSampleAndQueue _ s) (takeIfLocked_publishesAtMostOnce _)⟩

/-- A `Read` publishes nothing. -/
theorem nextCore_registers {s : State} {o : FrameOutcome} (h : nextCore s = .ok o) :
    (o.state.pub = s.pub ∧ o.state.pubValid = s.pubValid ∧ o.state.frameCnt = s.frameCnt) ∨
    (o.state.pubValid = true ∧ o.state.frameCnt = counterAfter s.params s.frameCnt 1) := by
  obtain h | ⟨n, h⟩ := nextCore_publishesAtMostOnce h
  · exact h.registers
  · exact h.registers

theorem nextCore_rxq {s : State} {o : FrameOutcome} (h : nextCore s = .ok o) :
    ∃ k, k ≤ s.rxq.length ∧ o.state.rxq = s.rxq.drop k := by
  obtain h | ⟨n, h⟩ := nextCore_publishesAtMostOnce h
  · exact ⟨0, Nat.zero_le _, h.rxq⟩
  · exact ⟨readCount n s, (readCount_le n s).2, h.rxq⟩

/-! ### The events -/

theorem withoutIndex_ok {w : Word} {i j : Instr} (h : withoutIndex w i = .ok j) : idxField w = 0 ∧ i = j := by
  unfold withoutIndex at h
  split at h <;> cases h
  next hidx => exact ⟨hidx, rfl⟩

/-- `NEXT` has one command word (30_encoding.md R58). -/
theorem eq_one_of_decodeCmd_next {v : Word} (h : decodeCmd v = .ok .next) : v = 0x00000001 := by
  have hreserved : reservedField v = 0 := by
    by_contra hne
    rw [decodeCmd_of_reserved hne] at h
    cases h
  unfold decodeCmd at h
  rw [if_neg (not_not.mpr hreserved)] at h
  split at h
  case h_1 => cases (withoutIndex_ok h).2
  case h_2 hop =>
    obtain ⟨hidx, -⟩ := withoutIndex_ok h
    calc v = cmdWord (opField v).toNat (idxField v) := eq_cmdWord_of_reserved hreserved
      _ = cmdWord 1 0 := by rw [hop, hidx]
      _ = 0x00000001 := rfl
  case h_8 => cases (withoutIndex_ok h).2
  all_goals cases h

/-- The events that run `NextCore`: the turn of the running Loop, and the host's `NEXT` while it is stopped
(20_memory.md R50, 43_poller.md R106). -/
def RunsNextCore (s : State) (e : Event) : Prop :=
  (s.running = true ∧ s.run = true ∧ e = .loop) ∨
  (s.running = false ∧ e = .hostWrite (s.blockBase + 0x008) 4 0x00000001)

/-- What an event does to the published sample and the queue: nothing, one `NextCore`, an Env step, or reset. -/
theorem Effect.sampleAndQueue {s s' : State} {e : Event} (h : Effect s e s') :
    SameSampleAndQueue s s' ∨
    (RunsNextCore s e ∧ ∃ o, nextCore s = .ok o ∧ SameSampleAndQueue o.state s') ∨
    (∃ bytes, e = .envAppend bytes ∧ s' = s.appendRx bytes) ∨
    (e = .reset ∧ s' = s.applyReset) := by
  cases h with
  | nextCommand w hv hr ho =>
    rw [eq_one_of_decodeCmd_next hv]
    exact .inr (.inl ⟨.inr ⟨hr, rfl⟩, _, ho, rfl, rfl, rfl, rfl, rfl⟩)
  | loopIterated hr hn ho => exact .inr (.inl ⟨.inl ⟨hr, hn, rfl⟩, _, ho, .refl _⟩)
  | appended bytes => exact .inr (.inr (.inl ⟨bytes, rfl, rfl⟩))
  | reset => exact .inr (.inr (.inr ⟨rfl, rfl⟩))
  | raised v err => exact .inl ⟨by simp, by simp, by simp, by simp, by simp⟩
  | _ => exact .inl ⟨rfl, rfl, rfl, rfl, rfl⟩

/-- Settles O58: only `NextCore` and reset write the published sample, and `NextCore` publishes at most once. -/
theorem publishHasOneWriter : Obligations.PublishHasOneWriter := by
  intro s s' h
  obtain ⟨e, rest, hscript, heff⟩ := step_effect h
  obtain hsame | ⟨hruns, o, ho, hsame⟩ | ⟨bytes, -, rfl⟩ | ⟨rfl, -⟩ := heff.sampleAndQueue
  · exact .inl ⟨hsame.pub, hsame.pubValid, hsame.frameCnt⟩
  · rw [hsame.pub, hsame.pubValid, hsame.frameCnt]
    obtain hkept | ⟨hvalid, hcount⟩ := nextCore_registers ho
    · exact .inl hkept
    refine .inr (.inl ⟨hvalid, hcount, ?_⟩)
    obtain ⟨hr, hn, rfl⟩ | ⟨hr, rfl⟩ := hruns
    · obtain hscript | ⟨hscript, -, -⟩ := hscript
      · exact .inl ⟨hr, hn, .inr ⟨rest, hscript⟩⟩
      · exact .inl ⟨hr, hn, .inl hscript⟩
    · exact .inr ⟨hr, rest, hscript.resolve_right (by simp)⟩
  · exact .inl ⟨rfl, rfl, rfl⟩
  · exact .inr (.inr ⟨rest, hscript.resolve_right (by simp)⟩)

/-- Settles O59: a step reads at most once, and reset leaves the queue as it is (70_reset_and_hazards.md R126). -/
theorem transportIsAQueue : Obligations.TransportIsAQueue := by
  intro s s' h
  obtain ⟨e, rest, hscript, heff⟩ := step_effect h
  obtain hsame | ⟨-, o, ho, hsame⟩ | ⟨bytes, rfl, rfl⟩ | ⟨-, rfl⟩ := heff.sampleAndQueue
  · exact .inl ⟨0, Nat.zero_le _, hsame.rxq⟩
  · obtain ⟨k, hk, hq⟩ := nextCore_rxq ho
    exact .inl ⟨k, hk, hsame.rxq.trans hq⟩
  · exact .inr ⟨bytes, rest, hscript.resolve_right (by simp), rfl⟩
  · exact .inl ⟨0, Nat.zero_le _, rfl⟩

end Sys2Proof.Machine
end

section
/-! SUPPORT. The decoder and the encoder (30_encoding.md R57 to R62): the words that R59 rejects, and for every other word
the one instruction whose encoding it is. -/

namespace Sys2Proof

/-- The illegal words by their fields (30_encoding.md R59 (a), (b), (c)). -/
def IllegalFields (w : Word) : Prop :=
  8 ≤ (opField w).toNat ∨ reservedField w ≠ 0 ∨
    ((opField w = 0 ∨ opField w = 1 ∨ opField w = 7) ∧ w.extractLsb' 16 16 ≠ 0)

theorem idxField_eq_zero_iff (w : Word) : idxField w = 0 ↔ w.extractLsb' 16 16 = 0 :=
  ⟨fun h => BitVec.eq_of_toNat_eq h, fun h => by rw [idxField, h]; rfl⟩

/-- The words of R59 are rejected. -/
theorem decodeCmd_of_illegalFields {w : Word} (h : IllegalFields w) : ∃ r, decodeCmd w = .error r := by
  by_cases hreserved : reservedField w = 0
  case neg => exact ⟨_, decodeCmd_of_reserved hreserved⟩
  obtain hop | hne | ⟨hop, hidx⟩ := h
  · refine ⟨.reservedOpcode, ?_⟩
    rw [decodeCmd, if_neg (not_not.mpr hreserved)]
    split
    case h_9 => rfl
    all_goals omega
  · exact absurd hreserved hne
  · rw [ne_eq, ← idxField_eq_zero_iff] at hidx
    obtain hop | hop | hop := hop <;> exact ⟨.strayIndex, by simp [decodeCmd, withoutIndex, hreserved, hop, hidx]⟩

/-- Every other word is the encoding of an instruction (30_encoding.md R58, R62). -/
theorem exists_encode_of_legal {w : Word} (h : ¬ IllegalFields w) :
    ∃ i, wellFormed i = true ∧ encode i = ⟨0x008, w⟩ := by
  simp only [IllegalFields, not_or, not_and, not_not, not_le] at h
  obtain ⟨hop, hreserved, hidx⟩ := h
  have hw := eq_cmdWord_of_reserved hreserved
  have hfits : decide (IndexFits (idxField w)) = true := decide_eq_true (idxField_lt w)
  have hbare : (opField w).toNat = 0 ∨ (opField w).toNat = 1 ∨ (opField w).toNat = 7 → idxField w = 0 := fun hop =>
    (idxField_eq_zero_iff w).mpr (hidx (by simpa [BitVec.toNat_eq] using hop))
  interval_cases (opField w).toNat
  · exact ⟨.nop, rfl, by rw [hw, hbare (by decide)]; rfl⟩
  · exact ⟨.next, rfl, by rw [hw, hbare (by decide)]; rfl⟩
  · exact ⟨.find _, hfits, by rw [encode, ← hw]; rfl⟩
  · exact ⟨.ext8u _, hfits, by rw [encode, ← hw]; rfl⟩
  · exact ⟨.ext16u _, hfits, by rw [encode, ← hw]; rfl⟩
  · exact ⟨.ext16s _, hfits, by rw [encode, ← hw]; rfl⟩
  · exact ⟨.ext32s _, hfits, by rw [encode, ← hw]; rfl⟩
  · exact ⟨.clear, rfl, by rw [hw, hbare (by decide)]; rfl⟩

/-- Settles O1: the fields of a command word are the opcode and the index it was built from. -/
theorem encodingRoundTrips : Obligations.EncodingRoundTrips := by
  intro i h
  cases i with
  | nop | next | clear | snap => rfl
  | find idx | ext8u idx | ext16u idx | ext16s idx | ext32s idx =>
    have hfits : idx < 65536 := of_decide_eq_true h
    exact (Machine.decode_cmd _).trans (by simp [decodeCmd, hfits])

/-- A command word decodes to the well-formed instruction it encodes, and to no other. -/
theorem decodeCmd_eq_ok_iff {w : Word} {i : Instr} :
    decodeCmd w = .ok i ↔ wellFormed i = true ∧ encode i = ⟨0x008, w⟩ := by
  have hencode : ∀ j, wellFormed j = true → encode j = ⟨0x008, w⟩ → decodeCmd w = .ok j := fun j hwf henc => by
    rw [← Machine.decode_cmd, ← henc, encodingRoundTrips j hwf]
  refine ⟨fun h => ?_, fun ⟨hwf, henc⟩ => hencode i hwf henc⟩
  by_cases hillegal : IllegalFields w
  · obtain ⟨r, hr⟩ := decodeCmd_of_illegalFields hillegal
    cases h.symm.trans hr
  · obtain ⟨j, hwf, henc⟩ := exists_encode_of_legal hillegal
    cases h.symm.trans (hencode j hwf henc)
    exact ⟨hwf, henc⟩

/-- Settles O2: a word that decodes is not illegal, so it is the encoding of an instruction, the one it decodes to. -/
theorem commandWordsHaveOneMeaning : Obligations.CommandWordsHaveOneMeaning :=
  fun _ _ => decodeCmd_eq_ok_iff.mp

theorem decodeCmd_error_iff (w : Word) : (∃ r, decodeCmd w = .error r) ↔ ∀ i, decodeCmd w ≠ .ok i := by
  cases decodeCmd w <;> simp

theorem decodeCmd_error_iff_illegalFields (w : Word) : (∃ r, decodeCmd w = .error r) ↔ IllegalFields w := by
  refine ⟨fun h => ?_, decodeCmd_of_illegalFields⟩
  by_contra hlegal
  obtain ⟨i, hi⟩ := exists_encode_of_legal hlegal
  exact (decodeCmd_error_iff w).mp h i (decodeCmd_eq_ok_iff.mpr hi)

/-! ### The rows of the opcode map (30_encoding.md R58) -/

/-- The low half of a word is its opcode, with its reserved bits 0. -/
theorem low_half_eq_iff (w : Word) {op : Nat} (hop : op < 16) :
    w &&& 0x0000FFFF = BitVec.ofNat 32 op ↔ reservedField w = 0 ∧ (opField w).toNat = op := by
  constructor
  · intro h
    have hreserved : reservedField (w &&& 0x0000FFFF) = reservedField w :=
      BitVec.extractLsb'_and.trans BitVec.and_allOnes
    have hopcode : opField (w &&& 0x0000FFFF) = opField w := BitVec.extractLsb'_and.trans BitVec.and_allOnes
    have hword : w &&& 0x0000FFFF = cmdWord op 0 := h.trans (by simp [cmdWord])
    rw [← hreserved, ← hopcode, hword]
    exact ⟨reservedField_cmdWord hop, opField_cmdWord hop⟩
  · rintro ⟨hreserved, rfl⟩
    calc w &&& 0x0000FFFF
        = cmdWord (opField w).toNat (idxField w) &&& 0x0000FFFF := by rw [← eq_cmdWord_of_reserved hreserved]
      _ = BitVec.ofNat 32 (opField w).toNat := Laws.cmdWord_and_low hop

theorem idxField_eq_shift (w : Word) : idxField w = (w >>> 16).toNat := by
  have hlt : w.toNat >>> 16 < 2 ^ 16 := by rw [Nat.shiftRight_eq_div_pow]; omega
  rw [idxField, BitVec.extractLsb'_toNat, BitVec.toNat_ushiftRight, Nat.mod_eq_of_lt hlt]

/-- Mask and match of an indexed row: the word of the row's opcode with the index in its high half. -/
theorem cmdWord_eq_iff (w : Word) {op : Nat} (hop : op < 16) (idx : Nat) :
    (idx < 65536 ∧ cmdWord op idx = w) ↔ w &&& 0x0000FFFF = BitVec.ofNat 32 op ∧ idx = (w >>> 16).toNat := by
  rw [low_half_eq_iff w hop, ← idxField_eq_shift]
  constructor
  · rintro ⟨hidx, rfl⟩
    exact ⟨⟨reservedField_cmdWord hop, opField_cmdWord hop⟩, (idxField_cmdWord hop hidx).symm⟩
  · rintro ⟨⟨hreserved, rfl⟩, rfl⟩
    exact ⟨idxField_lt w, (eq_cmdWord_of_reserved hreserved).symm⟩

/-- The row of a command that takes an index. -/
theorem decodeCmd_indexed_row (w : Word) {op idx : Nat} {i : Instr} (hop : op < 16)
    (hwf : wellFormed i = decide (IndexFits idx)) (henc : encode i = ⟨0x008, cmdWord op idx⟩) :
    decodeCmd w = .ok i ↔ w &&& 0x0000FFFF = BitVec.ofNat 32 op ∧ idx = (w >>> 16).toNat := by
  rw [← cmdWord_eq_iff w hop, decodeCmd_eq_ok_iff, hwf, henc, decide_eq_true_iff, HostWrite.mk.injEq]
  simp only [true_and]

/-- The row of a command without an operand: one word. -/
theorem decodeCmd_bare_row (w : Word) {v : Word} {i : Instr} (hwf : wellFormed i = true) (henc : encode i = ⟨0x008, v⟩) :
    decodeCmd w = .ok i ↔ w = v := by
  rw [decodeCmd_eq_ok_iff, hwf, henc, HostWrite.mk.injEq]
  simp only [true_and, eq_comm]

/-- A word that matches no row decodes to no instruction. -/
theorem decodeCmd_ne_ok_iff (w : Word) :
    (∀ i, decodeCmd w ≠ .ok i) ↔
      (w ≠ 0x00000000 ∧ w ≠ 0x00000001 ∧ w ≠ 0x00000007 ∧ w &&& 0x0000FFFF ≠ 2 ∧ w &&& 0x0000FFFF ≠ 3 ∧
        w &&& 0x0000FFFF ≠ 4 ∧ w &&& 0x0000FFFF ≠ 5 ∧ w &&& 0x0000FFFF ≠ 6) := by
  constructor
  · intro h
    have hbare : ∀ {v i}, wellFormed i = true → encode i = ⟨0x008, v⟩ → w ≠ v := fun hwf henc hv =>
      h _ ((decodeCmd_bare_row w hwf henc).mpr hv)
    refine ⟨hbare (i := .nop) rfl rfl, hbare (i := .next) rfl rfl, hbare (i := .clear) rfl rfl, fun hrow => ?_,
      fun hrow => ?_, fun hrow => ?_, fun hrow => ?_, fun hrow => ?_⟩
    · exact h (.find _) ((decodeCmd_indexed_row w (by decide) rfl rfl).mpr ⟨hrow, rfl⟩)
    · exact h (.ext8u _) ((decodeCmd_indexed_row w (by decide) rfl rfl).mpr ⟨hrow, rfl⟩)
    · exact h (.ext16u _) ((decodeCmd_indexed_row w (by decide) rfl rfl).mpr ⟨hrow, rfl⟩)
    · exact h (.ext16s _) ((decodeCmd_indexed_row w (by decide) rfl rfl).mpr ⟨hrow, rfl⟩)
    · exact h (.ext32s _) ((decodeCmd_indexed_row w (by decide) rfl rfl).mpr ⟨hrow, rfl⟩)
  · rintro ⟨hnop, hnext, hclear, hfind, hext8u, hext16u, hext16s, hext32s⟩ i hi
    cases i with
    | nop => exact hnop ((decodeCmd_bare_row w rfl rfl).mp hi)
    | next => exact hnext ((decodeCmd_bare_row w rfl rfl).mp hi)
    | find idx => exact hfind ((decodeCmd_indexed_row w (by decide) rfl rfl).mp hi).1
    | ext8u idx => exact hext8u ((decodeCmd_indexed_row w (by decide) rfl rfl).mp hi).1
    | ext16u idx => exact hext16u ((decodeCmd_indexed_row w (by decide) rfl rfl).mp hi).1
    | ext16s idx => exact hext16s ((decodeCmd_indexed_row w (by decide) rfl rfl).mp hi).1
    | ext32s idx => exact hext32s ((decodeCmd_indexed_row w (by decide) rfl rfl).mp hi).1
    | clear => exact hclear ((decodeCmd_bare_row w rfl rfl).mp hi)
    | snap => exact Machine.decodeCmd_ne_snap w hi

/-- Settles O3: the mask of a bare command takes the whole word, that of an indexed one its low half. -/
theorem opcodeRowsAreMaskAndMatch : Obligations.OpcodeRowsAreMaskAndMatch := by
  intro w
  have hmask : w &&& 0xFFFFFFFF = w := BitVec.and_allOnes
  rw [hmask]
  refine ⟨decodeCmd_bare_row w rfl rfl, decodeCmd_bare_row w rfl rfl, fun idx => ?_, fun idx => ?_, fun idx => ?_,
    fun idx => ?_, fun idx => ?_, decodeCmd_bare_row w rfl rfl, ?_⟩
  · exact decodeCmd_indexed_row w (by decide) rfl rfl
  · exact decodeCmd_indexed_row w (by decide) rfl rfl
  · exact decodeCmd_indexed_row w (by decide) rfl rfl
  · exact decodeCmd_indexed_row w (by decide) rfl rfl
  · exact decodeCmd_indexed_row w (by decide) rfl rfl
  · exact (decodeCmd_error_iff w).trans (decodeCmd_ne_ok_iff w)

/-- Settles O5, by evaluating the decoder on the eleven words. -/
theorem vectorWordsDecode : Obligations.VectorWordsDecode := by
  unfold Obligations.VectorWordsDecode
  decide

end Sys2Proof
end

section
/-! SUPPORT. A write to `CMD`: busy, then illegal, then the command of the word (30_encoding.md R60). -/

namespace Sys2Proof.Machine

/-- A command is refused while the loop runs (60_exceptions.md R111); `SNAP` is not (43_poller.md R101). -/
theorem exec_of_running {s : State} {i : Instr} (hr : s.running = true) (hi : i ≠ .snap) :
    exec i s = .next (s.raise .busy) := by
  cases i with
  | nop => rw [exec_nop, execNop, whenStopped_of_running hr]
  | next => rw [exec_next, execNext, whenStopped_of_running hr]
  | find idx => rw [exec_find, execFind, whenStopped_of_running hr]
  | ext8u idx => rw [exec_ext8u, execExt8u, extract, whenStopped_of_running hr]
  | ext16u idx => rw [exec_ext16u, execExt16u, extract, whenStopped_of_running hr]
  | ext16s idx => rw [exec_ext16s, execExt16s, extract, whenStopped_of_running hr]
  | ext32s idx => rw [exec_ext32s, execExt32s, extract, whenStopped_of_running hr]
  | clear => rw [exec_clear, execClear, whenStopped_of_running hr]
  | snap => exact absurd rfl hi

theorem hostWrite_cmd_of_ok {s : State} {w : Word} {i : Instr} (hb : s.blockBase % 4 = 0) (hd : decodeCmd w = .ok i) :
    hostWrite (s.blockBase + 0x008) 4 w s = exec i s :=
  hostWrite_of_decode_ok (h := ⟨0x008, w⟩) hb hd

theorem hostWrite_cmd_of_error {s : State} {w : Word} {r : Reject} (hb : s.blockBase % 4 = 0)
    (hd : decodeCmd w = .error r) : hostWrite (s.blockBase + 0x008) 4 w s = illegalWord s := by
  rw [hostWrite_reg hb (by decide) (by decide), writeOffset_cmd_error s hd]

/-- Any word written to `CMD` while the loop runs is refused (60_exceptions.md R111). -/
theorem hostWrite_cmd_of_running {s : State} (w : Word) (hb : s.blockBase % 4 = 0) (hr : s.running = true) :
    hostWrite (s.blockBase + 0x008) 4 w s = .next (s.raise .busy) := by
  cases hd : decodeCmd w with
  | error r => exact (hostWrite_cmd_of_error hb hd).trans (whenStopped_of_running hr _)
  | ok i =>
    have hi : i ≠ .snap := fun hsnap => decodeCmd_ne_snap w (hsnap ▸ hd)
    exact (hostWrite_cmd_of_ok hb hd).trans (exec_of_running hr hi)

/-- An illegal word written to `CMD` while the loop is stopped (60_exceptions.md R112). -/
theorem hostWrite_cmd_illegal {s : State} {w : Word} {r : Reject} (hb : s.blockBase % 4 = 0) (hr : s.running = false)
    (hd : decodeCmd w = .error r) : hostWrite (s.blockBase + 0x008) 4 w s = .next (s.raise .illegal) :=
  (hostWrite_cmd_of_error hb hd).trans (whenStopped_of_stopped hr _)

/-- Settles O4: the illegal words are those of R59, and each is refused with `ERR_ILLEGAL` alone. -/
theorem illegalWordsRaiseErrIllegal : Obligations.IllegalWordsRaiseErrIllegal :=
  fun w => ⟨decodeCmd_error_iff_illegalFields w, fun _ hb hr ⟨_, hd⟩ => hostWrite_cmd_illegal hb hr hd⟩

/-- Settles O8: R60's three outcomes in their order. -/
theorem commandWriteOrder : Obligations.CommandWriteOrder :=
  fun _ w hb => ⟨hostWrite_cmd_of_running w hb, fun hr _ hd => hostWrite_cmd_illegal hb hr hd,
    fun _ _ hd => hostWrite_cmd_of_ok hb hd⟩

end Sys2Proof.Machine
end

section
/-! SUPPORT. The formats of `RESULT` (30_encoding.md R61): a 16-bit position, a frame's length byte, and the kind or code of
the answer. -/

namespace Sys2Proof.Machine

/-- The parts of a `RESULT` word stand side by side. -/
theorem resultWord_eq_append (pos : Half) (flen low : Byte) :
    (zext32 pos <<< 16) ||| (zext32 flen <<< 8) ||| zext32 low = pos ++ flen ++ low := by
  have happend := BitVec.setWidth_append_append_eq_shiftLeft_setWidth_or (w''' := 32) (b := pos) (b' := flen) (b'' := low)
  rw [zext32, zext32, zext32, ← happend]
  exact BitVec.setWidth_eq _

theorem extractLsb'_resultWord (pos : Half) (flen low : Byte) :
    (pos ++ flen ++ low).extractLsb' 0 8 = low ∧ (pos ++ flen ++ low).extractLsb' 8 8 = flen ∧
      (pos ++ flen ++ low).extractLsb' 16 16 = pos := by
  refine ⟨BitVec.extractLsb'_append_eq_right, ?_, ?_⟩
  · rw [BitVec.extractLsb'_append_eq_of_le (by decide)]
    exact BitVec.extractLsb'_append_eq_right
  · rw [BitVec.extractLsb'_append_eq_of_le (by decide)]
    exact BitVec.extractLsb'_append_eq_left

/-! ### `NEXT` -/

theorem nextResult_eq_append (c : FrameCode) (len : Byte) :
    nextResult c len = (0 : Half) ++ len ++ (frameCodeWord c).setWidth 8 := by
  have hcode : zext32 ((frameCodeWord c).setWidth 8) = frameCodeWord c := by cases c <;> rfl
  rw [← resultWord_eq_append, hcode, nextResult]
  simp [zext32]

/-- A frame that is taken answers `SAMPLE` or `SHORT` (41_frame_buffer.md R79). -/
theorem takeFrame_code (s : State) : (takeFrame s).code = .sample ∨ (takeFrame s).code = .short := by
  obtain ⟨-, e⟩ | ⟨-, e⟩ := takeFrame_cases s
  · exact .inl (by rw [e])
  · exact .inr (by rw [e])

/-- `NextCore` answers with a frame's code, or with the length 0 (41_frame_buffer.md R79). -/
theorem nextCore_code_or_len {s : State} {o : FrameOutcome} (h : nextCore s = .ok o) :
    (o.code = .sample ∨ o.code = .short) ∨ o.len = 0 := by
  obtain ⟨-, -, -, rfl⟩ | ⟨-, -, rfl⟩ | ⟨-, -, -, -, rfl⟩ | ⟨-, -, -, rfl⟩ := nextCore_cases h
  · exact .inr rfl
  · exact .inl (takeFrame_code s)
  · exact .inl (takeFrame_code _)
  · rw [takeIfLocked]
    split
    · exact .inl (takeFrame_code _)
    · exact .inr rfl

/-- The fields of a `NEXT` result: `CODE` is at most 3, and 0 or 3 says that a frame was taken. -/
theorem nextResult_fields (c : FrameCode) (len : Byte) :
    ((nextResult c len).extractLsb' 0 3).toNat ≤ 3 ∧ (nextResult c len).extractLsb' 3 5 = 0 ∧
      (nextResult c len).extractLsb' 16 16 = 0 ∧ (nextResult c len).extractLsb' 8 8 = len ∧
      (c = .sample ∨ c = .short → (nextResult c len).extractLsb' 0 3 ≠ 1 ∧ (nextResult c len).extractLsb' 0 3 ≠ 2) := by
  obtain ⟨hlow, hflen, hpos⟩ := extractLsb'_resultWord 0 len ((frameCodeWord c).setWidth 8)
  rw [← nextResult_eq_append] at hlow hflen hpos
  have hcode : (nextResult c len).extractLsb' 0 3 = ((frameCodeWord c).setWidth 8).extractLsb' 0 3 := by
    rw [← hlow, BitVec.extractLsb'_extractLsb'_of_le (by decide)]
  have hzero : (nextResult c len).extractLsb' 3 5 = ((frameCodeWord c).setWidth 8).extractLsb' 3 5 := by
    rw [← hlow, BitVec.extractLsb'_extractLsb'_of_le (by decide)]
  rw [hcode, hzero]
  refine ⟨?_, ?_, hpos, hflen, ?_⟩ <;> cases c <;> decide

/-- Settles O35: a call that takes no frame answers with the length 0. -/
theorem nextResultFields : Obligations.NextResultFields := by
  intro s s' hr h
  obtain ⟨hrunning, -⟩ | ⟨-, o, ho, rfl⟩ := execNext_cases h
  · cases hr.symm.trans hrunning
  obtain ⟨hcode, hzero, hpos, hflen, hframe⟩ := nextResult_fields o.code o.len
  refine ⟨hcode, hzero, hpos, fun hnone => ?_⟩
  obtain hc | hlen := nextCore_code_or_len ho
  · obtain ⟨hne1, hne2⟩ := hframe hc
    exact absurd hnone (not_or.mpr ⟨hne1, hne2⟩)
  · exact hflen.trans hlen

/-! ### `FIND` -/

theorem findResult_found_eq_append (s : State) {t : Nat} (ht : t ≤ 65535) :
    findResult s (.found t) = BitVec.ofNat 16 t ++ get8 s (t + s.params.lenOff) ++ (0 : Byte) := by
  rw [← resultWord_eq_append, zext32_ofNat_half ht, findResult]
  simp [zext32]

theorem findResult_incomplete_eq_append (s : State) {t : Nat} (ht : t ≤ 65535) :
    findResult s (.incomplete t) = BitVec.ofNat 16 t ++ (1 : Half) := by
  have happend := BitVec.setWidth_append_eq_shiftLeft_setWidth_or (w'' := 32) (b := BitVec.ofNat 16 t) (b' := (1 : Half))
  calc findResult s (.incomplete t)
    _ = (BitVec.ofNat 16 t).setWidth 32 <<< 16 ||| (1 : Half).setWidth 32 := by rw [findResult, ← zext32_ofNat_half ht]; rfl
    _ = (BitVec.ofNat 16 t ++ (1 : Half)).setWidth 32 := happend.symm
    _ = _ := BitVec.setWidth_eq _

theorem exec_find_of_stopped {s : State} (hr : s.running = false) (idx : Nat) :
    exec (.find idx) s = .next (s.setResult (findResult s (scan s.params s.bytes idx).1)) := by
  rw [exec_find, execFind, whenStopped_of_stopped hr]

/-- Settles O21: a scan's answer stands in the buffer, so 16 bits hold its index (00_scope.md R8). -/
theorem findResultFields : Obligations.FindResultFields := by
  intro s s' idx hp hcap hr h
  rw [exec_find_of_stopped hr] at h
  cases h
  have hexact : ∀ {t}, t < s.bytes.length → t ≤ 65535 ∧ (BitVec.ofNat 16 t).toNat = t := fun {t} ht => by
    rw [State.bytes_length] at ht
    exact ⟨ht.le.trans (hcap.trans hp.2), toNat_ofNat_index hp hcap ht.le⟩
  rw [State.setResult_result]
  rcases hscan : scan s.params s.bytes idx with ⟨answer, k⟩
  cases answer with
  | found t =>
    obtain ⟨ht, hpos⟩ := hexact (Nat.lt_of_le_of_lt (Nat.le_add_right ..) (validStart_lt (scan_found_valid hscan)))
    obtain ⟨hlow, hflen, hhigh⟩ := extractLsb'_resultWord (BitVec.ofNat 16 t) (get8 s (t + s.params.lenOff)) 0
    rw [← findResult_found_eq_append s ht] at hlow hflen hhigh
    exact .inl ⟨t, k, rfl, hlow, hflen, by rw [hhigh, hpos]⟩
  | incomplete t =>
    obtain ⟨ht, hpos⟩ := hexact (scan_incomplete_lt hscan)
    refine .inr (.inl ⟨t, k, rfl, ?_, ?_⟩) <;> rw [findResult_incomplete_eq_append s ht]
    · exact BitVec.extractLsb'_append_eq_right
    · rw [BitVec.extractLsb'_append_eq_left, hpos]
  | none => exact .inr (.inr ⟨k, rfl, rfl⟩)

end Sys2Proof.Machine
end

section
/-! SUPPORT. The scan as a whole (40_synchronizer.md R64 to R71): what a marker, a validated start, an incomplete candidate
and a spurious marker say of the bytes, one turn of the loop for each, and the answer that the bytes decide. -/

namespace Sys2Proof.Machine

/-! ### The kinds of a marker (00_scope.md R11) -/

theorem markerAt_iff {p : Params} {S : List Byte} {t : Nat} : markerAt p S t = true ↔ S[t]? = some p.marker := by
  simp [markerAt]

theorem markerAt_eq_false_iff {p : Params} {S : List Byte} {t : Nat} : markerAt p S t = false ↔ S[t]? ≠ some p.marker := by
  simp [markerAt]

theorem validStart_iff {p : Params} {S : List Byte} {t : Nat} :
    validStart p S t = true ↔ markerAt p S t = true ∧
      ∃ len, S[t + p.lenOff]? = some len ∧ S[t + len.toNat]? = some p.term := by
  rw [validStart, Bool.and_eq_true]
  cases S[t + p.lenOff]? with
  | none => simp
  | some len => simp

theorem incompleteAt_iff {p : Params} {S : List Byte} {t : Nat} :
    incompleteAt p S t = true ↔ markerAt p S t = true ∧
      ∀ len, S[t + p.lenOff]? = some len → S[t + len.toNat]? = none := by
  rw [incompleteAt, Bool.and_eq_true]
  cases S[t + p.lenOff]? with
  | none => simp
  | some len => simp

theorem spuriousAt_iff {p : Params} {S : List Byte} {t : Nat} :
    spuriousAt p S t = true ↔ markerAt p S t = true ∧
      ∃ len e, S[t + p.lenOff]? = some len ∧ S[t + len.toNat]? = some e ∧ e ≠ p.term := by
  rw [spuriousAt, Bool.and_eq_true]
  cases S[t + p.lenOff]? with
  | none => simp
  | some len =>
    cases he : S[t + len.toNat]? with
    | none => simpa [he] using fun _ => List.getElem?_eq_none_iff.mp he
    | some e => simpa [he] using fun _ _ => (List.getElem?_eq_some_iff.mp he).1

theorem not_spuriousAt_of_validStart {p : Params} {S : List Byte} {t : Nat} (h : validStart p S t = true) :
    ¬ spuriousAt p S t = true := by
  obtain ⟨-, len, hlen, hterm⟩ := validStart_iff.mp h
  intro hs
  obtain ⟨-, len', e, hlen', he, hne⟩ := spuriousAt_iff.mp hs
  cases hlen.symm.trans hlen'
  exact hne (Option.some.inj (he.symm.trans hterm))

theorem not_spuriousAt_of_incompleteAt {p : Params} {S : List Byte} {t : Nat} (h : incompleteAt p S t = true) :
    ¬ spuriousAt p S t = true := by
  obtain ⟨-, hnone⟩ := incompleteAt_iff.mp h
  intro hs
  obtain ⟨-, len, e, hlen, he, -⟩ := spuriousAt_iff.mp hs
  cases (hnone len hlen).symm.trans he

theorem not_validStart_of_incompleteAt {p : Params} {S : List Byte} {t : Nat} (h : incompleteAt p S t = true) :
    ¬ validStart p S t = true := by
  obtain ⟨-, hnone⟩ := incompleteAt_iff.mp h
  intro hv
  obtain ⟨-, len, hlen, hterm⟩ := validStart_iff.mp hv
  cases (hnone len hlen).symm.trans hterm

/-! ### One turn of the loop (40_synchronizer.md R65) -/

/-- The scan passes over bytes that are no markers. -/
theorem scan_of_no_marker_between {p : Params} {S : List Byte} {i t : Nat} (hit : i ≤ t)
    (h : ∀ j, i ≤ j → j < t → S[j]? ≠ some p.marker) : scan p S i = scan p S t := by
  induction t, hit using Nat.le_induction with
  | base => rfl
  | succ t hit ih =>
    calc scan p S i
      _ = scan p S t := ih fun j hij hjt => h j hij (by omega)
      _ = scan p S (t + 1) := scan_of_not_marker (markerAt_eq_false_iff.mpr (h t hit (by omega)))

/-- No marker from the start on, an empty range among these cases (40_synchronizer.md R69, R71 (a)). -/
theorem scan_of_no_marker {p : Params} {S : List Byte} {i : Nat} (h : ∀ j, i ≤ j → S[j]? ≠ some p.marker) :
    scan p S i = (.none, 0) := by
  rw [scan_of_no_marker_between (Nat.le_max_left i S.length) fun j hij _ => h j hij]
  exact scan_of_length_le (Nat.le_max_right ..)

section
variable {p : Params} {S : List Byte} {i : Nat} {len : Byte} (hm : S[i]? = some p.marker)
  (hl : S[i + p.lenOff]? = some len)
include hm hl

/-- A marker whose terminator byte is not there (40_synchronizer.md R66). -/
theorem scan_of_no_terminator (he : S[i + len.toNat]? = none) : scan p S i = (.incomplete i, 0) := by
  rw [scan_of_length (markerAt_iff.mpr hm) hl, he]

/-- A marker with its terminator: a frame (40_synchronizer.md R65). -/
theorem scan_of_terminator (he : S[i + len.toNat]? = some p.term) : scan p S i = (.found i, 0) := by
  rw [scan_of_length (markerAt_iff.mpr hm) hl, he]
  exact if_pos rfl

/-- A marker with another byte in the terminator's place: it counts, and the scan goes on behind it. -/
theorem scan_of_other_terminator {e : Byte} (he : S[i + len.toNat]? = some e) (hne : e ≠ p.term) :
    scan p S i = ((scan p S (i + 1)).1, (scan p S (i + 1)).2 + 1) := by
  rw [scan_of_length (markerAt_iff.mpr hm) hl, he]
  exact if_neg hne

end

/-- Settles O17: the scan reaches the least marker, and there it makes one turn of its loop. -/
theorem scanFollowsItsDefinition : Obligations.ScanFollowsItsDefinition := by
  intro p S start
  refine ⟨scan_of_no_marker, fun t hst hm hleast => ?_⟩
  rw [scan_of_no_marker_between hst hleast]
  refine ⟨fun h => ?_, fun len hl => ⟨fun h => ?_, fun e he => ⟨fun hterm => ?_, fun hne => ?_⟩⟩⟩
  · exact scan_of_no_length (markerAt_iff.mpr hm) (List.getElem?_eq_none h)
  · exact scan_of_no_terminator hm hl (List.getElem?_eq_none h)
  · exact scan_of_terminator hm hl (hterm ▸ he)
  · exact scan_of_other_terminator hm hl he hne

/-- Settles O19: the byte in the terminator's place is the marker itself for the length 0, the length byte for `LEN_OFF`,
and the byte behind the marker for 1. -/
theorem smallLengthsAreNotSpecial : Obligations.SmallLengthsAreNotSpecial := by
  refine ⟨fun p S t hmt hm => ⟨fun hl => ?_, fun len hlen hne hl => ?_, fun hl he => ?_⟩, by decide⟩
  · exact scan_of_other_terminator hm hl hm hmt
  · exact scan_of_other_terminator hm hl (hlen ▸ hl) hne
  · exact scan_of_terminator hm hl he

/-! ### The markers a scan passes -/

/-- The number of markers in `S[i:e]`. -/
def markersIn (p : Params) (S : List Byte) (i e : Nat) : Nat :=
  ((List.range e).filter (fun j => decide (i ≤ j) && markerAt p S j)).length

theorem markersIn_of_le (p : Params) (S : List Byte) {i e : Nat} (h : e ≤ i) : markersIn p S i e = 0 := by
  rw [markersIn, List.length_eq_zero_iff, List.filter_eq_nil_iff]
  intro j hj
  have hlt : j < i := (List.mem_range.mp hj).trans_le h
  simp [hlt.not_ge]

theorem markersIn_succ_right (p : Params) (S : List Byte) (i e : Nat) :
    markersIn p S i (e + 1) = markersIn p S i e + if i ≤ e ∧ markerAt p S e = true then 1 else 0 := by
  simp only [markersIn, List.range_succ, List.filter_append, List.length_append, Nat.add_left_cancel_iff]
  by_cases h : i ≤ e ∧ markerAt p S e = true
  · rw [if_pos h, List.filter_cons_of_pos (by simpa using h), List.filter_nil, List.length_singleton]
  · rw [if_neg h, List.filter_cons_of_neg (by simpa using h), List.filter_nil, List.length_nil]

theorem markersIn_of_not_marker {p : Params} {S : List Byte} {i : Nat} (h : markerAt p S i = false) (e : Nat) :
    markersIn p S i e = markersIn p S (i + 1) e := by
  rw [markersIn, markersIn]
  congr 1
  refine List.filter_congr fun j _ => ?_
  obtain rfl | hj := eq_or_ne j i
  · simp [h]
  · have : i ≤ j ↔ i + 1 ≤ j := by omega
    simp only [this]

theorem markersIn_of_marker {p : Params} {S : List Byte} {i e : Nat} (h : markerAt p S i = true) (hie : i + 1 ≤ e) :
    markersIn p S i e = markersIn p S (i + 1) e + 1 := by
  induction e, hie using Nat.le_induction with
  | base => simp [markersIn_succ_right, markersIn_of_le, h]
  | succ e hie ih =>
    have hi : i ≤ e := by omega
    simp only [markersIn_succ_right, ih, hie, hi, true_and]
    omega

/-- Every marker in `S[i:e]` is spurious, and there are `k` of them. -/
structure PassesSpurious (p : Params) (S : List Byte) (i e k : Nat) : Prop where
  spurious : ∀ j, i ≤ j → j < e → markerAt p S j = true → spuriousAt p S j = true
  count : k = markersIn p S i e

theorem PassesSpurious.of_le {p : Params} {S : List Byte} {i e : Nat} (h : e ≤ i) : PassesSpurious p S i e 0 :=
  ⟨fun _ hij hje => by omega, (markersIn_of_le p S h).symm⟩

theorem PassesSpurious.of_not_marker {p : Params} {S : List Byte} {i e k : Nat} (hm : markerAt p S i = false)
    (h : PassesSpurious p S (i + 1) e k) : PassesSpurious p S i e k := by
  refine ⟨fun j hij hje hj => ?_, h.count.trans (markersIn_of_not_marker hm e).symm⟩
  obtain rfl | hlt := hij.eq_or_lt
  · cases hm.symm.trans hj
  · exact h.spurious j hlt hje hj

theorem PassesSpurious.of_spurious {p : Params} {S : List Byte} {i e k : Nat} (hs : spuriousAt p S i = true) (hie : i < e)
    (h : PassesSpurious p S (i + 1) e k) : PassesSpurious p S i e (k + 1) := by
  refine ⟨fun j hij hje hj => ?_, ?_⟩
  · obtain rfl | hlt := hij.eq_or_lt
    · exact hs
    · exact h.spurious j hlt hje hj
  · rw [markersIn_of_marker (spuriousAt_iff.mp hs).1 hie, h.count]

/-! ### The answer the bytes decide -/

/-- Where a scan with this answer ended: at the candidate, or at the end of the sequence. -/
def answerEnd (S : List Byte) (r : ScanResult) : Nat :=
  match r with
  | .found t => t
  | .incomplete t => t
  | .none => S.length

/-- A candidate in the answer stands at or behind the start and is what the answer says (40_synchronizer.md R64). -/
def AnswerStands (p : Params) (S : List Byte) (i : Nat) (r : ScanResult) : Prop :=
  match r with
  | .found t => i ≤ t ∧ validStart p S t = true
  | .incomplete t => i ≤ t ∧ incompleteAt p S t = true
  | .none => True

/-- All that an answer and its count say of the bytes from `i` on (40_synchronizer.md R71). -/
structure AnswerFits (p : Params) (S : List Byte) (i : Nat) (r : ScanResult) (k : Nat) : Prop where
  stands : AnswerStands p S i r
  passes : PassesSpurious p S i (answerEnd S r) k

section
variable {p : Params} {S : List Byte} {i : Nat} {r r' : ScanResult} {k k' : Nat}

theorem AnswerStands.of_succ (h : AnswerStands p S (i + 1) r) : AnswerStands p S i r := by
  cases r with
  | found t => exact ⟨Nat.le_of_succ_le h.1, h.2⟩
  | incomplete t => exact ⟨Nat.le_of_succ_le h.1, h.2⟩
  | none => trivial

theorem AnswerStands.lt_end (h : AnswerStands p S (i + 1) r) (hi : i < S.length) : i < answerEnd S r := by
  cases r with
  | found t => exact h.1
  | incomplete t => exact h.1
  | none => exact hi

theorem AnswerStands.end_le (h : AnswerStands p S i r) : answerEnd S r ≤ S.length := by
  cases r with
  | found t => exact (markerAt_lt (validStart_iff.mp h.2).1).le
  | incomplete t => exact (markerAt_lt (incompleteAt_iff.mp h.2).1).le
  | none => exact le_rfl

/-- An answer that ends within the sequence ends at a marker that is not spurious. -/
theorem AnswerStands.candidate (h : AnswerStands p S i r) (he : answerEnd S r < S.length) :
    i ≤ answerEnd S r ∧ markerAt p S (answerEnd S r) = true ∧ ¬ spuriousAt p S (answerEnd S r) = true := by
  cases r with
  | found t => exact ⟨h.1, (validStart_iff.mp h.2).1, not_spuriousAt_of_validStart h.2⟩
  | incomplete t => exact ⟨h.1, (incompleteAt_iff.mp h.2).1, not_spuriousAt_of_incompleteAt h.2⟩
  | none => exact absurd he (lt_irrefl _)

/-- The answer of a scan that ends at `e`. -/
def answerAt (p : Params) (S : List Byte) (e : Nat) : ScanResult :=
  if e < S.length then (if validStart p S e = true then .found e else .incomplete e) else .none

/-- Where an answer ends decides which it is. -/
theorem AnswerStands.eq_answerAt (h : AnswerStands p S i r) : r = answerAt p S (answerEnd S r) := by
  cases r with
  | found t =>
    obtain ⟨-, hv⟩ := h
    have ht : t < S.length := markerAt_lt (validStart_iff.mp hv).1
    simp [answerAt, answerEnd, ht, hv]
  | incomplete t =>
    obtain ⟨-, hinc⟩ := h
    have ht : t < S.length := markerAt_lt (incompleteAt_iff.mp hinc).1
    simp [answerAt, answerEnd, ht, not_validStart_of_incompleteAt hinc]
  | none => simp [answerAt, answerEnd]

theorem AnswerFits.of_not_marker (hm : markerAt p S i = false) (h : AnswerFits p S (i + 1) r k) : AnswerFits p S i r k :=
  ⟨h.stands.of_succ, h.passes.of_not_marker hm⟩

theorem AnswerFits.of_spurious (hs : spuriousAt p S i = true) (h : AnswerFits p S (i + 1) r k) :
    AnswerFits p S i r (k + 1) :=
  ⟨h.stands.of_succ, h.passes.of_spurious hs (h.stands.lt_end (markerAt_lt (spuriousAt_iff.mp hs).1))⟩

/-- An answer cannot end behind another one: it would pass that one's candidate, which is not spurious. -/
theorem AnswerFits.end_le (h : AnswerFits p S i r k) (h' : AnswerFits p S i r' k') : answerEnd S r ≤ answerEnd S r' := by
  by_contra hlt
  have hpassed : answerEnd S r' < answerEnd S r := by omega
  obtain ⟨hi, hm, hs⟩ := h'.stands.candidate (hpassed.trans_le h.stands.end_le)
  exact hs (h.passes.spurious _ hi hpassed hm)

theorem AnswerFits.unique (h : AnswerFits p S i r k) (h' : AnswerFits p S i r' k') : r = r' ∧ k = k' := by
  have hend : answerEnd S r = answerEnd S r' := (h.end_le h').antisymm (h'.end_le h)
  constructor
  · rw [h.stands.eq_answerAt, h'.stands.eq_answerAt, hend]
  · rw [h.passes.count, h'.passes.count, hend]

end

/-- The scan's own answer fits the bytes. -/
theorem scan_fits (p : Params) (S : List Byte) (i : Nat) : AnswerFits p S i (scan p S i).1 (scan p S i).2 := by
  obtain ⟨hi, e⟩ | ⟨hi, hm, e⟩ | ⟨-, hinc, e⟩ | ⟨-, hv, e⟩ | ⟨hi, hs, e⟩ := scan_cases p S i
  · rw [e]
    exact ⟨trivial, .of_le hi⟩
  · rw [e]
    exact .of_not_marker hm (scan_fits p S (i + 1))
  · rw [e]
    exact ⟨⟨le_rfl, hinc⟩, .of_le le_rfl⟩
  · rw [e]
    exact ⟨⟨le_rfl, hv⟩, .of_le le_rfl⟩
  · rw [e]
    exact .of_spurious hs (scan_fits p S (i + 1))
termination_by S.length - i

theorem scan_eq_iff {p : Params} {S : List Byte} {i : Nat} {r : ScanResult} {k : Nat} :
    scan p S i = (r, k) ↔ AnswerFits p S i r k := by
  have hfits := scan_fits p S i
  constructor
  · intro h
    rwa [h] at hfits
  · intro h
    obtain ⟨hr, hk⟩ := hfits.unique h
    exact Prod.ext hr hk

/-- Settles O18: the scan's answer fits the bytes, and only one answer does. -/
theorem scanAnswersAreExact : Obligations.ScanAnswersAreExact := by
  intro p S start t k
  refine ⟨scan_eq_iff.trans ⟨?_, ?_⟩, scan_eq_iff.trans ⟨?_, ?_⟩, scan_eq_iff.trans ⟨?_, ?_⟩⟩
  · rintro ⟨⟨hst, hv⟩, hspurious, hk⟩
    exact ⟨hst, hv, hspurious, hk⟩
  · rintro ⟨hst, hv, hspurious, hk⟩
    exact ⟨⟨hst, hv⟩, hspurious, hk⟩
  · rintro ⟨⟨hst, hinc⟩, hspurious, hk⟩
    exact ⟨hst, hinc, hspurious, hk⟩
  · rintro ⟨hst, hinc, hspurious, hk⟩
    exact ⟨⟨hst, hinc⟩, hspurious, hk⟩
  · rintro ⟨-, hspurious, hk⟩
    exact ⟨fun j hj hm => hspurious j hj (markerAt_lt hm) hm, hk⟩
  · rintro ⟨hspurious, hk⟩
    exact ⟨trivial, fun j hj _ hm => hspurious j hj hm, hk⟩

end Sys2Proof.Machine
end

section
/-! SUPPORT. `FIND` (40_synchronizer.md R72), and what the commands that only look at the buffer leave as it was. -/

namespace Sys2Proof.Machine

theorem exec_find_of_scan {s : State} {idx k : Nat} {r : ScanResult} (hr : s.running = false)
    (h : scan s.params s.bytes idx = (r, k)) : exec (.find idx) s = .next (s.setResult (findResult s r)) := by
  rw [exec_find_of_stopped hr, h]

/-- Settles O20: the word is a row of the opcode map, and each answer of the scan has its `RESULT`. -/
theorem findReportsTheScan : Obligations.FindReportsTheScan := by
  refine ⟨fun w hop => ⟨fun hres => ?_, fun hres => ⟨_, decodeCmd_of_reserved hres⟩⟩,
    fun s idx => ⟨fun hr => ?_, fun hr t k h => ?_, fun hr t k h => ?_, fun hr k h => ?_⟩⟩
  · have hlow : w &&& 0x0000FFFF = BitVec.ofNat 32 2 :=
      (low_half_eq_iff w (by decide)).mpr ⟨hres, congrArg BitVec.toNat hop⟩
    exact (decodeCmd_indexed_row w (by decide) rfl rfl).mpr ⟨hlow, idxField_eq_shift w⟩
  · exact exec_of_running hr (by simp)
  · have hzero : findResult s (.found t) = findResult s (.found t) ||| 0 := BitVec.or_zero.symm
    rw [exec_find_of_scan hr h, hzero]
    rfl
  · exact exec_find_of_scan hr h
  · exact exec_find_of_scan hr h

/-- `t` is `s` but for `RESULT`, `ERR_BUSY` and `ERR_BOUNDS`. -/
def SameButInspection (s t : State) : Prop :=
  t = { s with result := t.result, errBusy := t.errBusy, errBounds := t.errBounds }

theorem SameButInspection.buf {s t : State} (h : SameButInspection s t) : t.buf = s.buf := by
  rw [SameButInspection] at h
  rw [h]

theorem whenStopped_sameButInspection {s s' : State} {act : State → StepResult}
    (hact : ∀ t, act s = .next t → SameButInspection s t) (h : whenStopped s act = .next s') : SameButInspection s s' := by
  obtain ⟨-, rfl⟩ | ⟨-, h⟩ := whenStopped_cases h
  · rfl
  · exact hact s' h

theorem extract_sameButInspection {s s' : State} {idx w : Nat} {value : State → Word}
    (h : extract idx w value s = .next s') : SameButInspection s s' := by
  obtain ⟨-, rfl⟩ | ⟨-, -, rfl⟩ | ⟨-, -, rfl⟩ := extract_cases h
  · rfl
  · rfl
  · rfl

/-- Settles O16: each of the commands answers with a `RESULT` or a raised error bit alone, so the buffer is the same. -/
theorem inspectingCommandsFrame : Obligations.InspectingCommandsFrame := by
  intro i s s' hi h
  have hsame : SameButInspection s s' := by
    obtain rfl | ⟨idx, rfl | rfl | rfl | rfl | rfl⟩ := hi
    · rw [exec_nop] at h
      exact whenStopped_sameButInspection (fun t ht => by cases ht; rfl) h
    · rw [exec_find] at h
      exact whenStopped_sameButInspection (fun t ht => by cases ht; rfl) h
    · exact extract_sameButInspection (exec_ext8u idx s ▸ h)
    · exact extract_sameButInspection (exec_ext16u idx s ▸ h)
    · exact extract_sameButInspection (exec_ext16s idx s ▸ h)
    · exact extract_sameButInspection (exec_ext32s idx s ▸ h)
  exact ⟨hsame, fun a => by rw [hsame.buf]⟩

end Sys2Proof.Machine
end

section
/-! SUPPORT. What HUNT retains (41_frame_buffer.md R74): behind an incomplete candidate stand at most `LEN_OFF` or 255 bytes,
so neither `Advance` nor `Ingest` leaves more; and from it how much an ingest keeps. -/

namespace Sys2Proof.Machine

/-- An incomplete candidate stands at most `LEN_OFF`, or 255, bytes before the end: its length byte or its terminator byte is
missing (40_synchronizer.md R66, R67). -/
theorem incompleteAt_length_le {p : Params} {S : List Byte} {t : Nat} (h : incompleteAt p S t = true) :
    S.length ≤ t + max p.lenOff 255 := by
  obtain ⟨-, hnone⟩ := incompleteAt_iff.mp h
  cases hlen : S[t + p.lenOff]? with
  | none =>
    have hend : S.length ≤ t + p.lenOff := List.getElem?_eq_none_iff.mp hlen
    omega
  | some len =>
    have hend : S.length ≤ t + len.toNat := List.getElem?_eq_none_iff.mp (hnone len hlen)
    have hbyte : len.toNat < 256 := len.isLt
    omega

theorem scan_incomplete_length_le {p : Params} {S : List Byte} {i t n : Nat} (h : scan p S i = (.incomplete t, n)) :
    S.length ≤ t + max p.lenOff 255 :=
  incompleteAt_length_le (scan_eq_iff.mp h).stands.2

theorem SameFrame.huntRetainsFew {s t : State} (h : SameFrame s t) (hfew : HuntRetainsFew s) : HuntRetainsFew t := by
  simpa only [HuntRetainsFew, h.bufLen, h.sync, h.scanFrom, h.params] using hfew

/-- The bound speaks of HUNT only. -/
theorem huntRetainsFew_of_ne {s : State} (hy : s.sync ≠ .hunt) : HuntRetainsFew s := fun h => absurd h hy

/-- From LOCKED, `Advance` enters HUNT at an incomplete candidate or at the end (41_frame_buffer.md R78). -/
theorem advance_huntRetainsFew (start : Nat) {s : State} (hp : s.params.inRange) (hcap : s.bufLen ≤ s.params.bufCap)
    (hy : s.sync = .locked) : HuntRetainsFew (advance start s) := by
  obtain ⟨t, n, -, e⟩ | ⟨t, n, hs, e⟩ | ⟨n, -, e⟩ := advance_cases start s <;> rw [e]
  · exact huntRetainsFew_of_ne (by simp [hy])
  · have hlen := scan_incomplete_length_le hs
    have hlt := scan_incomplete_lt hs
    rw [State.bytes_length] at hlen hlt
    intro _
    simp only [State.setPosition_bufLen, State.setPosition_scanFrom, State.setPosition_params, State.addSpurious_bufLen,
      State.addSpurious_params, toNat_ofNat_index hp hcap hlt.le]
    omega
  · intro _
    simp [toNat_ofNat_index hp hcap le_rfl]

theorem takeFrame_huntRetainsFew {s : State} (hp : s.params.inRange) (hcap : s.bufLen ≤ s.params.bufCap)
    (hy : s.sync = .locked) : HuntRetainsFew (takeFrame s).state := by
  obtain ⟨-, e⟩ | ⟨-, e⟩ := takeFrame_cases s <;> rw [e] <;> exact advance_huntRetainsFew _ hp hcap hy

/-- `Ingest` leaves HUNT with the bytes from an incomplete candidate on, or with none (41_frame_buffer.md R73). -/
theorem ingest_huntRetainsFew (a : Nat) (s : State) : HuntRetainsFew (ingest a s) := by
  cases hy : s.sync with
  | empty =>
    rw [ingest_of_empty hy]
    obtain ⟨t, n, -, e⟩ | ⟨n, -, e⟩ :=
      ingestEmpty_cases (readBytes (ingestRequest a s) s) (s.afterRead (ingestRequest a s)) <;> rw [e]
    · exact huntRetainsFew_of_ne (by simp)
    · exact huntRetainsFew_of_ne (by simp [hy])
  | locked => exact huntRetainsFew_of_ne (by rw [ingest_sync_of_locked a hy]; decide)
  | hunt =>
    rw [ingest_of_hunt hy]
    obtain ⟨t, n, -, e⟩ | ⟨t, n, hs, e⟩ | ⟨n, -, e⟩ :=
      ingestHunt_cases (readBytes (ingestRequest a s) s) (s.afterRead (ingestRequest a s)) <;> rw [e]
    · exact huntRetainsFew_of_ne (by simp)
    · have hlen := scan_incomplete_length_le hs
      intro _
      simp only [State.setPosition_bufLen, State.setPosition_params, State.setBuffer_bufLen, State.setBuffer_params,
        State.addSpurious_params, List.length_drop]
      omega
    · intro _
      simp

theorem takeIfLocked_huntRetainsFew {s : State} (hp : s.params.inRange) (hcap : s.bufLen ≤ s.params.bufCap)
    (hfew : HuntRetainsFew s) : HuntRetainsFew (takeIfLocked s).state := by
  unfold takeIfLocked
  split
  · next hy => exact takeFrame_huntRetainsFew hp hcap hy
  · exact hfew

theorem nextCore_huntRetainsFew {s : State} {o : FrameOutcome} (h : nextCore s = .ok o) (hp : s.params.inRange)
    (hinv : SyncInv s) (hfew : HuntRetainsFew s) : HuntRetainsFew o.state := by
  have hcap : ∀ {t}, SyncInv t → t.bufLen ≤ t.params.bufCap := fun ⟨_, _, _, hcap⟩ => hcap
  obtain ⟨-, -, -, rfl⟩ | ⟨hy, -, rfl⟩ | ⟨-, -, hy, -, rfl⟩ | ⟨-, -, -, rfl⟩ := nextCore_cases h
  · exact hfew
  · exact takeFrame_huntRetainsFew hp (hcap hinv) hy
  · exact takeFrame_huntRetainsFew (ingest_inRange _ hp) (hcap (ingest_syncInv _ hinv)) (ingest_sync_of_locked _ hy)
  · exact takeIfLocked_huntRetainsFew (ingest_inRange _ hp) (hcap (ingest_syncInv _ hinv)) (ingest_huntRetainsFew _ s)

/-- Settles O52: an event that moves the buffer or its position is `CLEAR`, reset or one `NextCore`. -/
theorem stepKeepsTheHuntBound : Obligations.StepKeepsTheHuntBound := by
  intro s s' hp hinv hfew h
  obtain ⟨e, rest, -, heff⟩ := step_effect h
  obtain hsame | hsame | ⟨o, ho, hsame⟩ := heff.frame
  · exact hsame.huntRetainsFew hfew
  · exact hsame.huntRetainsFew (huntRetainsFew_of_ne (by simp))
  · exact hsame.huntRetainsFew (nextCore_huntRetainsFew ho hp hinv hfew)

/-! ### How much an ingest keeps, asks for and leaves -/

/-- An ingest leaves at most what it kept and what it asked for (41_frame_buffer.md R73). -/
theorem ingest_bufLen_le (a : Nat) (s : State) :
    (ingest a s).bufLen ≤ (retained s).length + ingestRequest a s := by
  have hread := (readCount_le (ingestRequest a s) s).1
  rw [retained_length]
  cases hy : s.sync with
  | empty =>
    rw [ingest_of_empty hy]
    obtain ⟨t, n, -, e⟩ | ⟨n, -, e⟩ :=
      ingestEmpty_cases (readBytes (ingestRequest a s) s) (s.afterRead (ingestRequest a s)) <;> rw [e]
    · simp only [State.setPosition_bufLen, State.setBuffer_bufLen, List.length_drop, readBytes_length]
      omega
    · exact Nat.zero_le _
  | locked =>
    rw [ingest_of_locked hy]
    simpa [ingestLocked] using hread
  | hunt =>
    rw [ingest_of_hunt hy]
    obtain ⟨t, n, -, e⟩ | ⟨t, n, -, e⟩ | ⟨n, -, e⟩ :=
      ingestHunt_cases (readBytes (ingestRequest a s) s) (s.afterRead (ingestRequest a s)) <;> rw [e]
    all_goals
      simp only [State.setPosition_bufLen, State.setBuffer_bufLen, List.length_drop, List.length_append, List.length_nil,
        readBytes_length, State.afterRead_bytes, State.bytes_length, State.afterRead_scanFrom]
      omega

/-- What an ingest keeps (41_frame_buffer.md R74): less than a frame and `SLACK` bytes behind `CUR` in LOCKED, what HUNT
retains, nothing in EMPTY. -/
theorem retained_length_le {s : State} (hlen : s.params.lenOff ≤ 255) (hslack : 1 ≤ s.params.slack)
    (hfew : HuntRetainsFew s) (hclose : s.sync = .locked → tooCloseToTail s = true) :
    (retained s).length ≤ 254 + s.params.slack := by
  rw [retained_length]
  cases hy : s.sync with
  | empty => exact Nat.zero_le _
  | locked =>
    have hshort := (tooCloseToTail_iff s).mp (hclose hy)
    have hbyte : (Memory.read s.buf (s.cur.toNat + s.params.lenOff)).toNat < 256 := BitVec.isLt _
    simp only
    omega
  | hunt =>
    have hkeep := hfew hy
    rw [max_eq_right hlen] at hkeep
    simp only
    omega

/-- Settles O53: what is kept leaves room for `SLACK` bytes more. -/
theorem ingestRetainsAtMost510 : Obligations.IngestRetainsAtMost510 := by
  constructor
  · intro s hlen hslack hcap _ hfew havail hclose
    have hkeep := retained_length_le hlen hslack hfew fun hy => (tooCloseToTail_iff s).mpr (hclose hy)
    refine ⟨hkeep, fun h256 => ?_, ?_, ingest_bufLen_le _ s, ?_⟩
    · omega
    · rw [ingestRequest]
      omega
    · rw [ingestRequest]
      omega
  · intro p hslack
    rw [Params.inRange, hslack]
    omega

end Sys2Proof.Machine
end

section
/-! SUPPORT. The bare commands: `NOP` and `CLEAR`, and the words that decode to a command without an operand
(30_encoding.md R58, R59, 41_frame_buffer.md R84, R85). -/

namespace Sys2Proof

/-- The bits above the opcode are the reserved field and the index. -/
theorem high_eq_zero_iff (w : Word) : w.extractLsb' 4 28 = 0 ↔ reservedField w = 0 ∧ w.extractLsb' 16 16 = 0 := by
  have happend : w.extractLsb' 16 16 ++ reservedField w = w.extractLsb' 4 28 :=
    BitVec.extractLsb'_append_extractLsb'_eq_extractLsb' rfl
  constructor
  · intro h
    rw [h] at happend
    refine ⟨?_, ?_⟩
    · calc reservedField w
          = (w.extractLsb' 16 16 ++ reservedField w).extractLsb' 0 12 := BitVec.extractLsb'_append_eq_right.symm
        _ = 0 := by rw [happend]; rfl
    · calc w.extractLsb' 16 16
          = (w.extractLsb' 16 16 ++ reservedField w).extractLsb' 12 16 := BitVec.extractLsb'_append_eq_left.symm
        _ = 0 := by rw [happend]; rfl
  · rintro ⟨hreserved, hidx⟩
    rw [← happend, hreserved, hidx]
    rfl

/-- A word with the opcode of a command without an operand is that command, or is illegal by a bit above its opcode
(30_encoding.md R58, R59). -/
theorem decodeCmd_of_bare_opcode {w v : Word} {i : Instr} (hwf : wellFormed i = true) (henc : encode i = ⟨0x008, v⟩)
    (hv : v.extractLsb' 4 28 = 0) (hop : opField w = opField v) (hbare : opField v = 0 ∨ opField v = 1 ∨ opField v = 7) :
    (w.extractLsb' 4 28 = 0 → decodeCmd w = .ok i) ∧ (w.extractLsb' 4 28 ≠ 0 → ∃ r, decodeCmd w = .error r) := by
  constructor
  · intro hw
    refine (decodeCmd_bare_row w hwf henc).mpr ?_
    calc w = w.extractLsb' 4 28 ++ opField w := (BitVec.extractLsb'_append_extractLsb' (w := 28) (len := 4)).symm
      _ = v.extractLsb' 4 28 ++ opField v := by rw [hw, hv, hop]
      _ = v := BitVec.extractLsb'_append_extractLsb' (w := 28) (len := 4)
  · intro hw
    rw [ne_eq, high_eq_zero_iff, not_and_or] at hw
    obtain hreserved | hidx := hw
    · exact decodeCmd_of_illegalFields (.inr (.inl hreserved))
    · exact decodeCmd_of_illegalFields (.inr (.inr ⟨hop ▸ hbare, hidx⟩))

end Sys2Proof

namespace Sys2Proof.Machine

/-- Settles O38. -/
theorem nopChangesNothing : Obligations.NopChangesNothing := by
  refine ⟨fun w hop => decodeCmd_of_bare_opcode (v := 0) rfl rfl rfl hop (by decide), fun s => ⟨fun hr => ?_, fun hr => ?_⟩⟩
  · exact exec_of_running hr (by simp)
  · exact (exec_nop s).trans (whenStopped_of_stopped hr _)

/-- Settles O37. -/
theorem clearEmptiesTheBuffer : Obligations.ClearEmptiesTheBuffer := by
  refine ⟨fun w hop => decodeCmd_of_bare_opcode (v := 7) rfl rfl rfl hop (by decide), fun s => ⟨fun hr => ?_, fun hr => ?_⟩⟩
  · exact exec_of_running hr (by simp)
  · exact ⟨((s.setBuffer []).setPosition .empty 0 0).setResult 0, (exec_clear s).trans (whenStopped_of_stopped hr _), rfl, rfl⟩

end Sys2Proof.Machine
end

section
/-! SUPPORT. `NextCore` and `NEXT` case by case (41_frame_buffer.md R78 to R81, R83): the outcome in each case, written as an
update of the state, and the answers that leave the state as it was. -/

namespace Sys2Proof.Machine

/-! ### Advance and the frame at the cursor, as updates of the state -/

/-- `Advance` (41_frame_buffer.md R78): the answer of the scan decides the position, and the count is added. -/
theorem advance_eq (start : Nat) (s : State) :
    advance start s =
      let r := scan s.params s.bytes start
      let s' := { s with spuriousCnt := counterAfter s.params s.spuriousCnt r.2 }
      match r.1 with
      | .found t => { s' with cur := BitVec.ofNat 16 t }
      | .incomplete t => { s' with sync := .hunt, cur := 0, scanFrom := BitVec.ofNat 16 t }
      | .none => { s' with sync := .hunt, cur := 0, scanFrom := BitVec.ofNat 16 s.bufLen } := by
  obtain ⟨t, n, hs, e⟩ | ⟨t, n, hs, e⟩ | ⟨n, hs, e⟩ := advance_cases start s <;> rw [e, hs]
  · have hkept : BitVec.ofNat 16 s.scanFrom.toNat = s.scanFrom := by simp
    rw [State.setPosition, hkept]
    rfl
  · rfl
  · rfl

/-- Publishing and advancing write different parts of the state (41_frame_buffer.md R78, 43_poller.md R100). -/
theorem advance_publish (start : Nat) (s : State) (p : Sample) :
    advance start (s.publish p) =
      { advance start s with pub := p, pubValid := true, frameCnt := counterAfter s.params s.frameCnt 1 } := by
  have hscan : scan (s.publish p).params (s.publish p).bytes start = scan s.params s.bytes start := rfl
  rw [advance, advance, hscan]
  rcases scan s.params s.bytes start with ⟨_ | _ | _, n⟩ <;> rfl

/-- Counting a short frame and advancing write different parts of the state (41_frame_buffer.md R78, 60_exceptions.md
R114). -/
theorem advance_countShort (start : Nat) (s : State) :
    advance start (s.raise .short).countShort =
      { advance start s with errShort := true, shortCnt := counterAfter s.params s.shortCnt 1 } := by
  have hscan : scan (s.raise .short).countShort.params (s.raise .short).countShort.bytes start =
    scan s.params s.bytes start := rfl
  rw [advance, advance, hscan]
  rcases scan s.params s.bytes start with ⟨_ | _ | _, n⟩ <;> rfl

/-- A long enough frame (41_frame_buffer.md R79): its sample is published. -/
theorem takeFrame_of_minFrame_le {s : State} (h : s.params.minFrame ≤ (frameLen s).toNat) :
    takeFrame s = ⟨.sample, frameLen s,
      { advance (s.cur.toNat + (frameLen s).toNat + 1) s with
        pub := decodeFrame s s.cur.toNat, pubValid := true, frameCnt := counterAfter s.params s.frameCnt 1 }⟩ := by
  obtain ⟨-, e⟩ | ⟨hshort, -⟩ := takeFrame_cases s
  · rw [e, advance_publish]
  · omega

/-- A short frame (41_frame_buffer.md R79, 60_exceptions.md R114): it is counted and flagged. -/
theorem takeFrame_of_lt_minFrame {s : State} (h : (frameLen s).toNat < s.params.minFrame) :
    takeFrame s = ⟨.short, frameLen s,
      { advance (s.cur.toNat + (frameLen s).toNat + 1) s with
        errShort := true, shortCnt := counterAfter s.params s.shortCnt 1 }⟩ := by
  obtain ⟨hlong, -⟩ | ⟨-, e⟩ := takeFrame_cases s
  · omega
  · rw [e, advance_countShort]

theorem takeIfLocked_of_locked {s : State} (hy : s.sync = .locked) : takeIfLocked s = takeFrame s := if_pos hy

theorem takeIfLocked_of_ne {s : State} (hy : s.sync ≠ .locked) : takeIfLocked s = ⟨.noFrame, 0, s⟩ := if_neg hy

/-! ### The outcome of `NextCore` and of `NEXT` in each case -/

section
variable {s : State}

theorem refill_of_starved (hu : s.transportUp = true) (hq : s.rxq.length < s.params.slack)
    (cont : State → FrameOutcome) : refill s cont = .ok ⟨.noData, 0, s⟩ := by simp [refill, avail, hu, hq]

theorem refill_of_supplied (hu : s.transportUp = true) (hq : s.params.slack ≤ s.rxq.length)
    (cont : State → FrameOutcome) : refill s cont = .ok (cont (ingest s.rxq.length s)) := by
  simp [refill, avail, hu, hq.not_gt]

theorem nextCore_of_not_locked (hy : s.sync ≠ .locked) : nextCore s = refill s takeIfLocked := by
  unfold nextCore
  split
  · rfl
  · rfl
  · next hlocked => exact absurd hlocked hy

/-- A LOCKED frame that passes the slack check needs no transport (41_frame_buffer.md R76, R79). -/
theorem nextCore_of_clear (hy : s.sync = .locked) (hclear : tooCloseToTail s = false) : nextCore s = .ok (takeFrame s) := by
  simp [nextCore, hy, hclear]

theorem nextCore_of_close (hy : s.sync = .locked) (hclose : tooCloseToTail s = true) :
    nextCore s = refill s takeFrame := by
  simp [nextCore, hy, hclose]

theorem exec_next_of_stopped {o : FrameOutcome} (hr : s.running = false) (ho : nextCore s = .ok o) :
    exec .next s = .next (o.state.setResult (nextResult o.code o.len)) := by
  rw [exec_next, execNext, whenStopped_of_stopped hr, ho]

theorem loopTurn_of_running {o : FrameOutcome} (hr : s.running = true) (hu : s.transportUp = true) (hn : s.run = true)
    (ho : nextCore s = .ok o) : loopTurn s = .next o.state := by
  simp [loopTurn, loopIter, hr, hu, hn, ho]

/-- `NEXT` whose answer is `NO_DATA` writes `RESULT` alone (41_frame_buffer.md R81). -/
theorem exec_next_of_noData (hr : s.running = false) (ho : nextCore s = .ok ⟨.noData, 0, s⟩) :
    exec .next s = .next { s with result := 1 } := by
  have hresult : nextResult .noData 0 = 1 := by decide
  rw [exec_next_of_stopped hr ho, hresult]
  rfl

end

/-- Settles O27. -/
theorem nextPublishesTheFrame : Obligations.NextPublishesTheFrame := by
  intro s len hr hy hlen hclear hmin
  obtain rfl : frameLen s = len := hlen
  have hcode : nextResult .sample (frameLen s) = (frameLen s).setWidth 32 <<< 8 := BitVec.or_zero
  have hexec := exec_next_of_stopped hr (nextCore_of_clear hy ((not_tooCloseToTail_iff s).mpr hclear))
  rw [takeFrame_of_minFrame_le hmin, hcode, advance_eq] at hexec
  refine ⟨fun t ht => ?_, fun t ht => ?_, fun ht => ?_⟩ <;> simp only [ht] at hexec <;> exact hexec

/-- Settles O29: without a transport's bytes the state is answered as it is; a frame or an ingest has another code. -/
theorem noDataChangesNothing : Obligations.NoDataChangesNothing := by
  refine ⟨fun s o ho hcode => ?_, fun s hr hu hq hy => ?_⟩
  · have hframe : ∀ t, (takeFrame t).code ≠ .noData := fun t => by
      obtain h | h := takeFrame_code t <;> simp [h]
    obtain ⟨-, -, -, rfl⟩ | ⟨-, -, rfl⟩ | ⟨-, -, -, -, rfl⟩ | ⟨-, -, -, rfl⟩ := nextCore_cases ho
    · rfl
    · exact absurd hcode (hframe _)
    · exact absurd hcode (hframe _)
    · by_cases hlocked : (ingest s.rxq.length s).sync = .locked
      · rw [takeIfLocked_of_locked hlocked] at hcode
        exact absurd hcode (hframe _)
      · rw [takeIfLocked_of_ne hlocked] at hcode
        cases hcode
  · exact exec_next_of_noData hr ((nextCore_of_not_locked hy).trans (refill_of_starved hu hq _))

/-- Settles O30: the slack check fails and the check of the transport does too, so nothing is ingested. -/
theorem tailStallHoldsTheFrame : Obligations.TailStallHoldsTheFrame := by
  intro s hy hu hq hclose
  have ho := (nextCore_of_close hy ((tooCloseToTail_iff s).mpr hclose)).trans (refill_of_starved hu hq _)
  exact ⟨ho, fun hr => exec_next_of_noData hr ho, fun hr hn => loopTurn_of_running hr hu hn ho⟩

end Sys2Proof.Machine
end

section
/-! SUPPORT. `Ingest` (41_frame_buffer.md R73): what it leaves in each `SYNC` state, and `NEXT` on an ingest that finds no
frame. -/

namespace Sys2Proof.Machine

/-- `t` differs from `s` at most in what `Ingest` may write (41_frame_buffer.md R73): the buffer and its position, the
spurious count, and the transport's queue with its draws. -/
def SameOutsideIngest (s t : State) : Prop :=
  t = { s with
    buf := t.buf, bufLen := t.bufLen, sync := t.sync, cur := t.cur, scanFrom := t.scanFrom
    spuriousCnt := t.spuriousCnt, rxq := t.rxq, draws := t.draws, drawCount := t.drawCount }

theorem ingest_sameOutsideIngest (a : Nat) (s : State) : SameOutsideIngest s (ingest a s) := by
  cases hy : s.sync with
  | empty =>
    rw [ingest_of_empty hy]
    obtain ⟨t, n, -, e⟩ | ⟨n, -, e⟩ := ingestEmpty_cases (readBytes (ingestRequest a s) s) (s.afterRead (ingestRequest a s))
      <;> rw [e] <;> rfl
  | locked => rw [ingest_of_locked hy]; rfl
  | hunt =>
    rw [ingest_of_hunt hy]
    obtain ⟨t, n, -, e⟩ | ⟨t, n, -, e⟩ | ⟨n, -, e⟩ :=
      ingestHunt_cases (readBytes (ingestRequest a s) s) (s.afterRead (ingestRequest a s)) <;> rw [e] <;> rfl

/-- Settles O32. -/
theorem ingestFollowsItsRule : Obligations.IngestFollowsItsRule := by
  intro s a plus keep n k N t
  have hkeep : keep = (retained s).length := (retained_length s).symm
  have hn : n = ingestRequest a s := congrArg (fun m => min a (s.params.bufCap - m)) hkeep
  have hN : N = readBytes (ingestRequest a s) s := by rw [← hn]; rfl
  refine ⟨(readCount_le n s).1, (readCount_le n s).2, ?_, ?_, ingest_sameOutsideIngest a s⟩
  · rw [(ingest_sameSampleAndQueue a s).rxq, ← hn]
    rfl
  cases hy : s.sync with
  | empty =>
    have ht : t = ingestEmpty N (s.afterRead n) := by rw [hN, hn, ← ingest_of_empty hy]
    obtain ⟨p, m, hs, e⟩ | ⟨m, hs, e⟩ := ingestEmpty_cases N (s.afterRead n)
    · rw [State.afterRead_params] at hs
      rw [ht, e, hs]
      exact ⟨rfl, by simp, by simp, rfl, rfl⟩
    · rw [State.afterRead_params] at hs
      obtain ⟨p, hs⟩ | hs := hs <;> rw [ht, e, hs] <;> exact ⟨rfl, rfl, by simp, hy, rfl⟩
  | locked =>
    have ht : t = ingestLocked N (s.afterRead n) := by rw [hN, hn, ← ingest_of_locked hy]
    rw [ht]
    simp [ingestLocked, hy]
  | hunt =>
    have ht : t = ingestHunt N (s.afterRead n) := by rw [hN, hn, ← ingest_of_hunt hy]
    obtain ⟨p, m, hs, e⟩ | ⟨p, m, hs, e⟩ | ⟨m, hs, e⟩ := ingestHunt_cases N (s.afterRead n)
    all_goals
      rw [State.afterRead_params, State.afterRead_bytes, State.afterRead_scanFrom] at hs
      simp only [ht, e, hs]
    · exact ⟨rfl, rfl, by simp, rfl, rfl⟩
    · exact ⟨rfl, rfl, by simp, rfl, by simp⟩
    · exact ⟨rfl, rfl, by simp, rfl, by simp⟩

/-- An EMPTY ingest whose new bytes hold no validated frame drops them (41_frame_buffer.md R73). -/
theorem ingest_of_noise {s : State} {a : Nat} (hy : s.sync = .empty)
    (hnone : ∀ t, (scan s.params (readBytes (ingestRequest a s) s) 0).1 ≠ .found t) :
    ingest a s = ((s.afterRead (ingestRequest a s)).addSpurious
      (scan s.params (readBytes (ingestRequest a s) s) 0).2).setBuffer [] := by
  rw [ingest_of_empty hy]
  obtain ⟨t, m, hs, -⟩ | ⟨m, hs, e⟩ :=
    ingestEmpty_cases (readBytes (ingestRequest a s) s) (s.afterRead (ingestRequest a s))
  · exact absurd (congrArg Prod.fst hs) (hnone t)
  · rw [State.afterRead_params] at hs
    obtain ⟨t, hs⟩ | hs := hs <;> rw [e, hs]

/-- Settles O31: the state stays EMPTY, so there is no frame to take. -/
theorem nextDropsNoiseInEmpty : Obligations.NextDropsNoiseInEmpty := by
  intro s d ds hr hy hu hq hdraws plus k r hnone
  have hk : readCount (ingestRequest s.rxq.length s) s = k := by
    simp [readCount, nextDraw, hdraws, ingestRequest, retained, hy, k]
  have hread : s.afterRead (ingestRequest s.rxq.length s) = { s with rxq := s.rxq.drop k, draws := ds } := by
    simp [State.afterRead, hk, hdraws]
  have hgot : readBytes (ingestRequest s.rxq.length s) s = s.rxq.take k := by rw [readBytes, hk]
  have ht : ingest s.rxq.length s = ({ s with rxq := s.rxq.drop k, draws := ds }.addSpurious r.2).setBuffer [] := by
    rw [ingest_of_noise hy (by rwa [hgot]), hread, hgot]
  have hne : (ingest s.rxq.length s).sync ≠ .locked := by simp [ht, hy]
  have ho : nextCore s = .ok ⟨.noFrame, 0, ingest s.rxq.length s⟩ := by
    rw [nextCore_of_not_locked (by simp [hy]), refill_of_supplied hu hq, takeIfLocked_of_ne hne]
  have hresult : nextResult .noFrame 0 = 2 := by decide
  refine ⟨_, exec_next_of_stopped hr ho, ?_⟩
  rw [hresult, ht]
  exact ⟨rfl, rfl, rfl⟩

end Sys2Proof.Machine
end

section
/-! SUPPORT. `NextCore` as a whole (41_frame_buffer.md R79), and what `NEXT` leaves as it was (R80). -/

namespace Sys2Proof.Machine

/-- With a transport `NextCore` always answers (U2). -/
theorem exists_nextCore_of_transport {s : State} (hu : s.transportUp = true) : ∃ o, nextCore s = .ok o := by
  have hrefill : ∀ cont, ∃ o, refill s cont = .ok o := by
    intro cont
    obtain hq | hq := Nat.lt_or_ge s.rxq.length s.params.slack
    · exact ⟨_, refill_of_starved hu hq cont⟩
    · exact ⟨_, refill_of_supplied hu hq cont⟩
  by_cases hy : s.sync = .locked
  · cases hclose : tooCloseToTail s with
    | false => exact ⟨_, nextCore_of_clear hy hclose⟩
    | true => rw [nextCore_of_close hy hclose]; exact hrefill _
  · rw [nextCore_of_not_locked hy]
    exact hrefill _

/-- Settles O33: in each case `NextCore` has one answer, and its frame is that of `takeFrame`. -/
theorem nextCoreFollowsItsRule : Obligations.NextCoreFollowsItsRule := by
  refine ⟨fun w hop => decodeCmd_of_bare_opcode (v := 1) rfl rfl rfl hop (by decide),
    fun s hr => exec_of_running hr (by simp), ?_⟩
  intro s hu plus close t frame
  have hparams : t.params = s.params := (SameOutsideNextCore.ingest _ s).window.2
  have hframe : ∀ u, u.params = s.params → frame u (takeFrame u) := by
    intro u hp
    have hplus : ∀ c n, plus c n = counterAfter u.params c n := fun c n => by rw [hp]; rfl
    refine ⟨fun hmin => ?_, fun hmin => ?_⟩
    · rw [takeFrame_of_minFrame_le (hp ▸ hmin), advance_eq]
      simp only [hplus]
      rfl
    · rw [takeFrame_of_lt_minFrame (hp ▸ hmin), advance_eq]
      simp only [hplus]
      rfl
  obtain ⟨o, ho⟩ := exists_nextCore_of_transport hu
  have hanswer : ∀ {x}, nextCore s = .ok x → o = x := fun h => Except.ok.inj (ho.symm.trans h)
  have hcloses : close → tooCloseToTail s = true := (tooCloseToTail_iff s).mpr
  refine ⟨o, ho, fun hy hq => ?_, fun hy hq ht => ?_, fun hy hq ht => ?_, fun hy hclear => ?_, fun hy hclose hq => ?_,
    fun hy hclose hq => ?_, fun hr => exec_next_of_stopped hr ho⟩
  · exact hanswer ((nextCore_of_not_locked hy).trans (refill_of_starved hu hq _))
  · rw [hanswer ((nextCore_of_not_locked hy).trans (refill_of_supplied hu hq _)), takeIfLocked_of_ne ht]
  · rw [hanswer ((nextCore_of_not_locked hy).trans (refill_of_supplied hu hq _)), takeIfLocked_of_locked ht]
    exact hframe t hparams
  · have hpasses : tooCloseToTail s = false := (not_tooCloseToTail_iff s).mpr (Nat.le_of_not_lt hclear)
    rw [hanswer (nextCore_of_clear hy hpasses)]
    exact hframe s rfl
  · exact hanswer ((nextCore_of_close hy (hcloses hclose)).trans (refill_of_starved hu hq _))
  · rw [hanswer ((nextCore_of_close hy (hcloses hclose)).trans (refill_of_supplied hu hq _))]
    refine ⟨ingest_sync_of_locked _ hy, ?_, hframe t hparams⟩
    simp [t, ingest_of_locked hy, ingestLocked]

/-! ### What `NEXT` leaves as it was -/

theorem advance_buffer (start : Nat) (s : State) :
    (advance start s).buf = s.buf ∧ (advance start s).bufLen = s.bufLen := by
  obtain ⟨t, n, -, e⟩ | ⟨t, n, -, e⟩ | ⟨n, -, e⟩ := advance_cases start s <;> rw [e] <;> exact ⟨rfl, rfl⟩

/-- A frame is taken without a `Read`, and its bytes stay in the buffer (41_frame_buffer.md R79). -/
theorem takeFrame_buffer (s : State) :
    (takeFrame s).state.rxq = s.rxq ∧ (takeFrame s).state.bufLen = s.bufLen ∧ (takeFrame s).state.buf = s.buf := by
  refine ⟨(takeFrame_publishesAtMostOnce s).rxq, ?_⟩
  obtain ⟨-, e⟩ | ⟨-, e⟩ := takeFrame_cases s <;> rw [e]
  · obtain ⟨hbuf, hlen⟩ := advance_buffer (s.cur.toNat + (frameLen s).toNat + 1) (s.publish (decodeFrame s s.cur.toNat))
    exact ⟨hlen, hbuf⟩
  · obtain ⟨hbuf, hlen⟩ := advance_buffer (s.cur.toNat + (frameLen s).toNat + 1) (s.raise .short).countShort
    exact ⟨hlen, hbuf⟩

/-- A LOCKED ingest moves the bytes from `CUR` on down by `CUR` (41_frame_buffer.md R73). -/
theorem read_ingest_of_locked {s : State} {a : Nat} (n : Nat) (hy : s.sync = .locked) (ha : a < s.bufLen - s.cur.toNat) :
    Memory.read (ingest n s).buf a = Memory.read s.buf (s.cur.toNat + a) := by
  have hkept : a < (s.bytes.drop s.cur.toNat).length := by simpa using ha
  have hbyte : s.cur.toNat + a < s.bufLen := by omega
  have hread : (s.bytes.drop s.cur.toNat ++ readBytes (ingestRequest n s) s)[a]? =
      some (Memory.read s.buf (s.cur.toNat + a)) := by
    rw [List.getElem?_append_left hkept, List.getElem?_drop, State.bytes_getElem?, if_pos hbyte]
  rw [ingest_of_locked hy, ingestLocked, State.setPosition_buf, State.setBuffer_buf, Memory.read_ofBytes,
    List.getD_eq_getElem?_getD, State.afterRead_bytes, State.afterRead_cur, hread, Option.getD_some]

/-- Where `NEXT` issues no `Read`, the queue and the buffer stay (41_frame_buffer.md R76, R81). -/
theorem nextCore_buffer_of_unread {s : State} {o : FrameOutcome} (ho : nextCore s = .ok o)
    (hunread : s.rxq.length < s.params.slack ∨ s.sync = .locked ∧ tooCloseToTail s = false) :
    o.state.rxq = s.rxq ∧ o.state.bufLen = s.bufLen ∧ o.state.buf = s.buf := by
  obtain ⟨-, -, -, rfl⟩ | ⟨-, -, rfl⟩ | ⟨-, hq, -, hclose, rfl⟩ | ⟨-, hq, hy, rfl⟩ := nextCore_cases ho
  · exact ⟨rfl, rfl, rfl⟩
  · exact takeFrame_buffer s
  · obtain hstarved | ⟨-, hclear⟩ := hunread
    · omega
    · cases hclose.symm.trans hclear
  · obtain hstarved | ⟨hlocked, -⟩ := hunread
    · omega
    · exact absurd hlocked hy

/-- Settles O34: the refusal sets one error bit; otherwise `NEXT` writes `RESULT` and what `NextCore` may write. -/
theorem nextFrame : Obligations.NextFrame := by
  intro s s' h
  obtain ⟨hr, rfl⟩ | ⟨hr, o, ho, rfl⟩ := execNext_cases h
  · refine ⟨by simp, fun _ => by simp, fun hstopped => ?_⟩
    cases hr.symm.trans hstopped
  refine ⟨?_, fun hunread => ?_, fun _ hq hy hclose => ?_⟩
  · have hsame := SameOutsideNextCore.nextCore ho
    rw [SameOutsideNextCore] at hsame
    rw [hsame]
    exact ⟨rfl, rfl, rfl, rfl, rfl, rfl, rfl, rfl, rfl, rfl, rfl, rfl⟩
  · rw [hr, ← not_tooCloseToTail_iff] at hunread
    obtain ⟨hrxq, hlen, hbuf⟩ := nextCore_buffer_of_unread ho (hunread.resolve_left Bool.false_ne_true)
    exact ⟨hrxq, hlen, fun a => congrArg (Memory.read · a) hbuf⟩
  · obtain ⟨-, hstarved, -, -⟩ | ⟨-, hclear, -⟩ | ⟨-, -, -, -, rfl⟩ | ⟨-, -, hne, -⟩ := nextCore_cases ho
    · omega
    · cases hclear.symm.trans ((tooCloseToTail_iff s).mpr hclose)
    · intro a ha
      obtain ⟨-, -, hbuf⟩ := takeFrame_buffer (ingest s.rxq.length s)
      rw [State.setResult_buf, hbuf, read_ingest_of_locked _ hy ha]
    · exact absurd hy hne

end Sys2Proof.Machine
end

section
/-! SUPPORT. Back-to-back frames (41_frame_buffer.md R82): a frame's bytes keep their order when an ingest moves them to the
front of the buffer, so `NextCore` takes the same frame with or without an ingest, and then stands at the frame behind it. -/

namespace Sys2Proof.Machine

/-! ### The bytes of a frame, wherever they stand -/

/-- `t` holds from index `d` on what `s` holds from index `c` on, and perhaps more behind it. -/
structure KeepsFrom (s : State) (c : Nat) (t : State) (d : Nat) : Prop where
  params : t.params = s.params
  bytes : s.bytes.drop c <+: t.bytes.drop d

theorem KeepsFrom.trans {s t u : State} {c d e : Nat} (hst : KeepsFrom s c t d) (htu : KeepsFrom t d u e) :
    KeepsFrom s c u e :=
  ⟨htu.params.trans hst.params, hst.bytes.trans htu.bytes⟩

theorem KeepsFrom.add {s t : State} {c d : Nat} (h : KeepsFrom s c t d) (k : Nat) : KeepsFrom s (c + k) t (d + k) := by
  refine ⟨h.params, ?_⟩
  rw [← List.drop_drop, ← List.drop_drop]
  exact h.bytes.drop k

theorem KeepsFrom.read {s t : State} {c d k : Nat} (h : KeepsFrom s c t d) (hk : c + k < s.bufLen) :
    Memory.read t.buf (d + k) = Memory.read s.buf (c + k) := by
  have hs : s.bytes[c + k]? = some (Memory.read s.buf (c + k)) := by rw [State.bytes_getElem?, if_pos hk]
  have ht : t.bytes[d + k]? = some (Memory.read s.buf (c + k)) := by
    obtain ⟨T, hT⟩ := h.bytes
    rw [← List.getElem?_drop] at hs ⊢
    rw [← hT, List.getElem?_append_left (List.getElem?_eq_some_iff.mp hs).1, hs]
  rw [State.bytes_getElem?] at ht
  split at ht
  · exact Option.some.inj ht
  · cases ht

/-- A validated frame with the length byte `len` starts at index `c` of the buffer (00_scope.md R11). -/
structure FrameAt (s : State) (c : Nat) (len : Byte) : Prop where
  valid : validStart s.params s.bytes c = true
  length : get8 s (c + s.params.lenOff) = len

/-- A validated frame stands in the buffer with its terminator. -/
theorem FrameAt.lt {s : State} {c : Nat} {len : Byte} (h : FrameAt s c len) : c + len.toNat < s.bufLen := by
  obtain ⟨-, l, hl, hterm⟩ := validStart_iff.mp h.valid
  have hlt : c + s.params.lenOff < s.bufLen := by simpa using validStart_lt h.valid
  rw [State.bytes_getElem?, if_pos hlt] at hl
  obtain rfl : l = len := (Option.some.inj hl).symm.trans h.length
  simpa using (List.getElem?_eq_some_iff.mp hterm).1

theorem FrameAt.of_keepsFrom {s t : State} {c d : Nat} {len : Byte} (h : FrameAt s c len) (hkeep : KeepsFrom s c t d) :
    FrameAt t d len := by
  constructor
  · obtain ⟨T, hT⟩ := hkeep.bytes
    have hvalid : validStart s.params (s.bytes.drop c) 0 = true := by rw [validStart_drop]; exact h.valid
    have hmore := validStart_append T hvalid
    rw [hT, validStart_drop] at hmore
    rw [hkeep.params]
    exact hmore
  · have hlt : c + s.params.lenOff < s.bufLen := by simpa using validStart_lt h.valid
    rw [hkeep.params]
    exact (hkeep.read hlt).trans h.length

theorem formValue_congr {s t : State} {i j : Nat} (form : FieldForm)
    (h : ∀ k, k < formWidth form → Memory.read t.buf (j + k) = Memory.read s.buf (i + k)) :
    formValue form t j = formValue form s i := by
  have hbyte : ∀ k, k < formWidth form → get8 t (j + k) = get8 s (i + k) := h
  have hhalf : ∀ k, k + 1 < formWidth form → get16 t (j + k) = get16 s (i + k) := fun k hk =>
    congrArg₂ (· ++ ·) (hbyte (k + 1) hk) (hbyte k (Nat.lt_of_succ_lt hk))
  cases form with
  | signed16 => exact congrArg sext32 (hhalf 0 (by decide))
  | unsigned16 => exact congrArg zext32 (hhalf 0 (by decide))
  | q16 =>
    rw [formValue, formValue, get32_eq_append, get32_eq_append]
    exact congrArg₂ (· ++ ·) (hhalf 2 (by decide)) (hhalf 0 (by decide))
  | byte => exact congrArg zext32 (hbyte 0 (by decide))

/-- A frame that holds every field (42_decoder.md R92) decodes to the same sample wherever it stands. -/
theorem FrameAt.decodeFrame_eq {s t : State} {c d : Nat} {len : Byte} (h : FrameAt s c len) (hfit : FieldsFit s.params)
    (hmin : s.params.minFrame ≤ len.toNat) (hkeep : KeepsFrom s c t d) : decodeFrame t d = decodeFrame s c := by
  have hend := h.lt
  have hfield : ∀ f, fieldValue t d f = fieldValue s c f := by
    intro f
    have hf := hfit f
    rw [fieldValue, fieldValue, hkeep.params]
    refine formValue_congr _ fun k hk => ?_
    rw [Nat.add_assoc, Nat.add_assoc]
    exact hkeep.read (by omega)
  simp only [decodeFrame, hfield]

/-! ### The frame a LOCKED call takes -/

/-- The state whose frame a LOCKED `NextCore` takes (41_frame_buffer.md R79): after an ingest when the slack check fails. -/
def frameState (s : State) : State := if tooCloseToTail s then ingest s.rxq.length s else s

section
variable {s : State}

theorem frameState_of_clear (h : tooCloseToTail s = false) : frameState s = s := by simp [frameState, h]

theorem frameState_of_close (h : tooCloseToTail s = true) : frameState s = ingest s.rxq.length s := by
  simp [frameState, h]

theorem nextCore_of_locked (hy : s.sync = .locked)
    (h : tooCloseToTail s = false ∨ s.transportUp = true ∧ s.params.slack ≤ s.rxq.length) :
    nextCore s = .ok (takeFrame (frameState s)) := by
  cases hclose : tooCloseToTail s with
  | false => rw [frameState_of_clear hclose, nextCore_of_clear hy hclose]
  | true =>
    obtain ⟨hu, hq⟩ := h.resolve_left (by simp [hclose])
    rw [frameState_of_close hclose, nextCore_of_close hy hclose, refill_of_supplied hu hq]

theorem frameState_syncInv (hinv : SyncInv s) : SyncInv (frameState s) := by
  unfold frameState
  split
  · exact ingest_syncInv _ hinv
  · exact hinv

theorem frameState_sync (hy : s.sync = .locked) : (frameState s).sync = .locked := by
  unfold frameState
  split
  · exact ingest_sync_of_locked _ hy
  · exact hy

/-- A LOCKED ingest renumbers the frame to index 0 (41_frame_buffer.md R73). -/
theorem frameState_cur_of_close (hy : s.sync = .locked) (h : tooCloseToTail s = true) : (frameState s).cur = 0 := by
  rw [frameState_of_close h, ingest_of_locked hy]
  simp [ingestLocked]

theorem frameState_keepsFrom (hy : s.sync = .locked) :
    KeepsFrom s s.cur.toNat (frameState s) (frameState s).cur.toNat := by
  cases hclose : tooCloseToTail s with
  | false => rw [frameState_of_clear hclose]; exact ⟨rfl, [], List.append_nil _⟩
  | true =>
    rw [frameState_cur_of_close hy hclose, frameState_of_close hclose, ingest_of_locked hy]
    exact ⟨rfl, by simp [ingestLocked]⟩

end

/-! ### Taking the frame, and the frame behind it -/

section
variable {t : State} {len len2 : Byte}

theorem takeFrame_of_frameAt (hf : FrameAt t t.cur.toNat len) (hmin : t.params.minFrame ≤ len.toNat) :
    takeFrame t = ⟨.sample, len,
      { advance (t.cur.toNat + len.toNat + 1) t with
        pub := decodeFrame t t.cur.toNat, pubValid := true, frameCnt := counterAfter t.params t.frameCnt 1 }⟩ := by
  obtain rfl : frameLen t = len := hf.length
  exact takeFrame_of_minFrame_le hmin

/-- `Advance` stands at the frame behind, when there is one right there (41_frame_buffer.md R78). -/
theorem advance_of_frameAt {start : Nat} (hf : FrameAt t start len) :
    advance start t = (t.addSpurious 0).setPosition t.sync start t.scanFrom.toNat :=
  advance_of_found (scan_eq_iff.mpr ⟨⟨le_rfl, hf.valid⟩, .of_le le_rfl⟩)

/-- `Advance` goes on, or leaves LOCKED for HUNT (41_frame_buffer.md R78). -/
theorem advance_position (start : Nat) (hp : t.params.inRange) (hcap : t.bufLen ≤ t.params.bufCap) :
    (advance start t).sync = .hunt ∨ (advance start t).sync = t.sync ∧ start ≤ (advance start t).cur.toNat := by
  obtain ⟨c, n, hs, e⟩ | ⟨c, n, -, e⟩ | ⟨n, -, e⟩ := advance_cases start t <;> rw [e]
  · obtain ⟨hstart, hv⟩ := (scan_eq_iff.mp hs).stands
    have hc : c ≤ t.bufLen := by simpa using (markerAt_lt (validStart_iff.mp hv).1).le
    exact .inr ⟨rfl, by rwa [State.setPosition_cur, toNat_ofNat_index hp hcap hc]⟩
  · exact .inl rfl
  · exact .inl rfl

/-- After a frame with a frame right behind it, the cursor stands at that one. -/
theorem takeFrame_keepsFrom (hp : t.params.inRange) (hcap : t.bufLen ≤ t.params.bufCap)
    (hf : FrameAt t t.cur.toNat len) (hmin : t.params.minFrame ≤ len.toNat)
    (hf2 : FrameAt t (t.cur.toNat + len.toNat + 1) len2) :
    (takeFrame t).state.sync = t.sync ∧
      KeepsFrom t (t.cur.toNat + len.toNat + 1) (takeFrame t).state (takeFrame t).state.cur.toNat := by
  have hend := hf2.lt
  have hcur : (BitVec.ofNat 16 (t.cur.toNat + len.toNat + 1)).toNat = t.cur.toNat + len.toNat + 1 :=
    toNat_ofNat_index hp hcap (by omega)
  rw [takeFrame_of_frameAt hf hmin, advance_of_frameAt hf2]
  refine ⟨rfl, rfl, ?_⟩
  rw [State.setPosition_cur, hcur]
  exact ⟨[], List.append_nil _⟩

/-- After a frame the cursor is past its terminator, or `SYNC` is HUNT (41_frame_buffer.md R82). -/
theorem takeFrame_position (hp : t.params.inRange) (hcap : t.bufLen ≤ t.params.bufCap)
    (hf : FrameAt t t.cur.toNat len) (hmin : t.params.minFrame ≤ len.toNat) :
    (takeFrame t).state.sync = .hunt ∨
      (takeFrame t).state.sync = t.sync ∧ t.cur.toNat + len.toNat < (takeFrame t).state.cur.toNat := by
  rw [takeFrame_of_frameAt hf hmin]
  exact advance_position _ hp hcap

end

/-! ### One LOCKED call -/

section
variable {s : State} {len len2 : Byte}

/-- A LOCKED call that can go on publishes the frame at the cursor, with or without an ingest (41_frame_buffer.md R79). -/
theorem takeFrame_frameState_publishes (hfit : FieldsFit s.params) (hy : s.sync = .locked)
    (hf : FrameAt s s.cur.toNat len) (hmin : s.params.minFrame ≤ len.toNat) :
    (takeFrame (frameState s)).code = .sample ∧ (takeFrame (frameState s)).len = len ∧
      (takeFrame (frameState s)).state.pub = decodeFrame s s.cur.toNat := by
  have hkeep := frameState_keepsFrom hy
  rw [takeFrame_of_frameAt (hf.of_keepsFrom hkeep) (hkeep.params ▸ hmin)]
  exact ⟨rfl, rfl, hf.decodeFrame_eq hfit hmin hkeep⟩

/-- With a frame right behind the one at the cursor, the call ends LOCKED at that one (41_frame_buffer.md R78). -/
theorem takeFrame_frameState_keepsFrom (hp : s.params.inRange) (hinv : SyncInv s) (hy : s.sync = .locked)
    (hf : FrameAt s s.cur.toNat len) (hmin : s.params.minFrame ≤ len.toNat)
    (hf2 : FrameAt s (s.cur.toNat + len.toNat + 1) len2) :
    (takeFrame (frameState s)).state.sync = .locked ∧ SyncInv (takeFrame (frameState s)).state ∧
      KeepsFrom s (s.cur.toNat + len.toNat + 1) (takeFrame (frameState s)).state
        (takeFrame (frameState s)).state.cur.toNat := by
  have hkeep := frameState_keepsFrom hy
  have hkeep2 := hkeep.add (len.toNat + 1)
  have hrange : (frameState s).params.inRange := hkeep.params ▸ hp
  have hy' := frameState_sync hy
  obtain ⟨-, -, -, hcap⟩ := frameState_syncInv hinv
  obtain ⟨hsync, hnext⟩ := takeFrame_keepsFrom hrange hcap (hf.of_keepsFrom hkeep) (hkeep.params ▸ hmin)
    (hf2.of_keepsFrom hkeep2)
  exact ⟨hsync.trans hy', takeFrame_syncInv hrange hy' (frameState_syncInv hinv), hkeep2.trans hnext⟩

/-- The call ends in HUNT, or LOCKED past the frame's terminator, which an ingest has renumbered to `L` (41_frame_buffer.md
R73, R82). -/
theorem takeFrame_frameState_position (hp : s.params.inRange) (hinv : SyncInv s) (hy : s.sync = .locked)
    (hf : FrameAt s s.cur.toNat len) (hmin : s.params.minFrame ≤ len.toNat) :
    (takeFrame (frameState s)).state.sync = .hunt ∨
      (takeFrame (frameState s)).state.sync = .locked ∧
        (tooCloseToTail s = false → s.cur.toNat + len.toNat < (takeFrame (frameState s)).state.cur.toNat) ∧
        (tooCloseToTail s = true → len.toNat < (takeFrame (frameState s)).state.cur.toNat) := by
  have hkeep := frameState_keepsFrom hy
  obtain ⟨-, -, -, hcap⟩ := frameState_syncInv hinv
  obtain hhunt | ⟨hsync, hpast⟩ := takeFrame_position (hkeep.params ▸ hp) hcap (hf.of_keepsFrom hkeep)
    (hkeep.params ▸ hmin)
  · exact .inl hhunt
  refine .inr ⟨hsync.trans (frameState_sync hy), fun hclear => ?_, fun hclose => ?_⟩
  · rw [frameState_of_clear hclear] at hpast ⊢
    exact hpast
  · omega

end

/-- Settles O36: the first call leaves the cursor at the second frame, whose bytes both calls keep. -/
theorem backToBackFramesInOrder : Obligations.BackToBackFramesInOrder := by
  intro s len1 len2 hp hfit hinv hy hlen1 hmin1 c2 hv2 hlen2 hmin2 passes supplied hcall
  have hpasses : ∀ t, t.params = s.params → (passes t ↔ tooCloseToTail t = false) := fun t ht => by
    rw [not_tooCloseToTail_iff, ht]
    simp only [passes, ht]
  have hcalls : ∀ t, t.params = s.params → passes t ∨ supplied t →
      tooCloseToTail t = false ∨ t.transportUp = true ∧ t.params.slack ≤ t.rxq.length := fun t ht h => by
    rwa [← hpasses t ht, ht]
  have hf1 : FrameAt s s.cur.toNat len1 := by
    obtain ⟨-, hlocked, -, -⟩ := hinv
    obtain ⟨-, -, hv1⟩ := hlocked hy
    exact ⟨hv1, hlen1⟩
  have hf2 : FrameAt s c2 len2 := ⟨hv2, hlen2⟩
  obtain ⟨hcode1, hanswer1, hpub1⟩ := takeFrame_frameState_publishes hfit hy hf1 hmin1
  obtain ⟨huy, huinv, hkeep⟩ := takeFrame_frameState_keepsFrom hp hinv hy hf1 hmin1 hf2
  refine ⟨_, nextCore_of_locked hy (hcalls s rfl hcall), hcode1, hanswer1, hpub1, ?_⟩
  generalize (takeFrame (frameState s)).state = u at *
  have hg2 := hf2.of_keepsFrom hkeep
  have hmin2' : u.params.minFrame ≤ len2.toNat := hkeep.params ▸ hmin2
  refine ⟨fun hcall2 => ?_, fun hclose hup hq => ?_⟩
  · obtain ⟨hcode2, hanswer2, hpub2⟩ := takeFrame_frameState_publishes (hkeep.params ▸ hfit) huy hg2 hmin2'
    refine ⟨_, nextCore_of_locked huy (hcalls u hkeep.params hcall2), hcode2, hanswer2,
      hpub2.trans (hf2.decodeFrame_eq hfit hmin2 hkeep), ?_⟩
    rw [hpasses u hkeep.params, Bool.not_eq_false]
    exact takeFrame_frameState_position (hkeep.params ▸ hp) huinv huy hg2 hmin2'
  · rw [hpasses u hkeep.params, Bool.not_eq_false] at hclose
    exact (nextCore_of_close huy hclose).trans (refill_of_starved hup (hkeep.params ▸ hq) _)

end Sys2Proof.Machine
end

section
/-! SUPPORT. The extract commands (42_decoder.md R88 to R91): the words that decode to a command with an index, and the three
answers of an extraction. -/

namespace Sys2Proof

/-- A word with the opcode of a command that takes an index is that command, or is illegal by a reserved bit
(30_encoding.md R58, R59). -/
theorem decodeCmd_of_indexed_opcode {w : Word} {op : Nat} {i : Instr} (hlt : op < 16)
    (hwf : wellFormed i = decide (IndexFits (idxField w))) (henc : encode i = ⟨0x008, cmdWord op (idxField w)⟩)
    (hop : (opField w).toNat = op) :
    (reservedField w = 0 → decodeCmd w = .ok i) ∧ (reservedField w ≠ 0 → ∃ r, decodeCmd w = .error r) := by
  constructor
  · intro hreserved
    exact (decodeCmd_indexed_row w hlt hwf henc).mpr ⟨(low_half_eq_iff w hlt).mpr ⟨hreserved, hop⟩, idxField_eq_shift w⟩
  · intro hreserved
    exact ⟨_, decodeCmd_of_reserved hreserved⟩

end Sys2Proof

namespace Sys2Proof.Machine

/-- An extraction out of bounds while the loop is stopped raises `ERR_BOUNDS` and answers 0 (42_decoder.md R87). -/
theorem extract_of_outOfBounds {s : State} {idx w : Nat} (value : State → Word) (hr : s.running = false)
    (hb : s.bufLen < idx + w) : extract idx w value s = .next ((s.raise .bounds).setResult 0) := by
  simp [extract, whenStopped_of_stopped hr, inBounds, hb]

/-- The three answers of an extraction: the refusal while the loop runs, the value, and the bounds error. -/
theorem extract_answers (idx w : Nat) (value : State → Word) (s : State) :
    (s.running = true → extract idx w value s = .next (s.raise .busy)) ∧
    (s.running = false → idx + w ≤ s.bufLen → extract idx w value s = .next (s.setResult (value s))) ∧
    (s.running = false → s.bufLen < idx + w → extract idx w value s = .next ((s.raise .bounds).setResult 0)) :=
  ⟨fun hr => whenStopped_of_running hr _, extract_of_inBounds value, extract_of_outOfBounds value⟩

/-- Settles O11. -/
theorem ext8uReadsAByte : Obligations.Ext8uReadsAByte :=
  ⟨fun _ hop => decodeCmd_of_indexed_opcode (by decide) rfl rfl (congrArg BitVec.toNat hop),
    fun s idx => extract_answers idx 1 (fun s => zext32 (get8 s idx)) s⟩

/-- Settles O12. -/
theorem ext16uReadsLittleEndianUnsigned : Obligations.Ext16uReadsLittleEndianUnsigned :=
  ⟨fun _ hop => decodeCmd_of_indexed_opcode (by decide) rfl rfl (congrArg BitVec.toNat hop),
    fun s idx => extract_answers idx 2 (fun s => zext32 (get16 s idx)) s⟩

/-- Settles O13. -/
theorem ext16sReadsLittleEndianSigned : Obligations.Ext16sReadsLittleEndianSigned :=
  ⟨fun _ hop => decodeCmd_of_indexed_opcode (by decide) rfl rfl (congrArg BitVec.toNat hop),
    fun s idx => extract_answers idx 2 (fun s => sext32 (get16 s idx)) s⟩

/-- Settles O14. -/
theorem ext32sReadsLittleEndianWord : Obligations.Ext32sReadsLittleEndianWord :=
  ⟨fun _ hop => decodeCmd_of_indexed_opcode (by decide) rfl rfl (congrArg BitVec.toNat hop),
    fun s idx => extract_answers idx 4 (fun s => get32 s idx) s⟩

end Sys2Proof.Machine
end

section
/-! SUPPORT. The frame decoder (42_decoder.md R92 to R99): what an extension keeps of a value, the fields that little-endian
bytes decode to, and the bytes the decoder reads. -/

namespace Sys2Proof.Machine

/-! ### The extensions (00_scope.md R9) -/

theorem sext32_toInt (v : Half) : (sext32 v).toInt = v.toInt := BitVec.toInt_signExtend_of_le (by decide)

theorem zext32_toNat {n : Nat} (hn : n ≤ 32) (v : BitVec n) : (zext32 v).toNat = v.toNat :=
  BitVec.toNat_setWidth_of_le hn

/-- A word in the range of a signed half is the sign extension of its low half. -/
theorem sext32_low_half {raw : Word} (hlo : -32768 ≤ raw.toInt) (hhi : raw.toInt ≤ 32767) :
    sext32 (raw.setWidth 16) = raw := by
  apply BitVec.eq_of_toInt_eq
  calc (sext32 (raw.setWidth 16)).toInt
      = (raw.toNat : Int).bmod (2 ^ 16) := by rw [sext32_toInt, BitVec.toInt_setWidth]
    _ = raw.toInt.bmod (2 ^ 16) := by rw [BitVec.toInt_eq_toNat_bmod, Int.bmod_bmod_of_dvd (by decide)]
    _ = raw.toInt := Int.bmod_eq_of_le (by omega) (by omega)

/-- A word below `2 ^ n` is the zero extension of its low `n` bits. -/
theorem zext32_low {n : Nat} {raw : Word} (hn : n ≤ 32) (hlt : raw.toNat < 2 ^ n) : zext32 (raw.setWidth n) = raw := by
  apply BitVec.eq_of_toNat_eq
  rw [zext32_toNat hn, BitVec.toNat_setWidth, Nat.mod_eq_of_lt hlt]

/-! ### Little-endian bytes (20_memory.md R40) -/

/-- The `w` bytes from index `i` on are the low bytes of `raw`, the least significant first. -/
def LittleEndianAt (s : State) (i w : Nat) (raw : Word) : Prop :=
  ∀ k, k < w → get8 s (i + k) = (raw >>> (8 * k)).setWidth 8

section
variable {s : State} {i w : Nat} {raw : Word}

/-- Bit `b` of the encoded word is bit `b % 8` of the byte `b / 8`. -/
theorem LittleEndianAt.getLsbD_get8 (h : LittleEndianAt s i w raw) {b : Nat} (hb : b / 8 < w) :
    (get8 s (i + b / 8)).getLsbD (b % 8) = raw.getLsbD b := by
  have hmod : b % 8 < 8 := Nat.mod_lt b (by decide)
  rw [h _ hb, BitVec.getLsbD_setWidth, BitVec.getLsbD_ushiftRight, Nat.div_add_mod]
  simp [hmod]

theorem LittleEndianAt.get8_eq (h : LittleEndianAt s i 1 raw) : get8 s i = raw.setWidth 8 := h 0 (by decide)

theorem LittleEndianAt.get16_eq (h : LittleEndianAt s i 2 raw) : get16 s i = raw.setWidth 16 := by
  apply BitVec.eq_of_getLsbD_eq
  intro b hb
  rw [getLsbD_get16 s i hb, h.getLsbD_get8 (by omega), BitVec.getLsbD_setWidth]
  simp [hb]

theorem LittleEndianAt.get32_eq (h : LittleEndianAt s i 4 raw) : get32 s i = raw := by
  apply BitVec.eq_of_getLsbD_eq
  intro b hb
  rw [getLsbD_get32 s i hb, h.getLsbD_get8 (by omega)]

end

/-! ### The round trip and the ranges (42_decoder.md R98, R99) -/

/-- Settles O23: the bytes give the low bits of the raw value, and the range makes its extension the value itself. -/
theorem fieldsRoundTrip : Obligations.FieldsRoundTrip := by
  intro s c f raw hrange hbytes
  have hle : LittleEndianAt s (c + fieldOffset s.params f) (formWidth (fieldForm f)) raw := hbytes
  rw [decodeFrame_get]
  generalize fieldForm f = form at hrange hle ⊢
  cases form with
  | signed16 => exact (congrArg sext32 hle.get16_eq).trans (sext32_low_half hrange.1 hrange.2)
  | unsigned16 => exact (congrArg zext32 hle.get16_eq).trans (zext32_low (by decide) (Nat.lt_succ_of_le hrange))
  | q16 => exact hle.get32_eq
  | byte => exact (congrArg zext32 hle.get8_eq).trans (zext32_low (by decide) (Nat.lt_succ_of_le hrange))

theorem sext32_half_range (v : Half) : -32768 ≤ (sext32 v).toInt ∧ (sext32 v).toInt ≤ 32767 := by
  rw [sext32_toInt]
  exact ⟨v.le_toInt, v.toInt_le⟩

theorem zext32_range {n : Nat} (hn : n ≤ 32) (v : BitVec n) :
    (0 : Int) ≤ (zext32 v).toNat ∧ ((zext32 v).toNat : Int) < 2 ^ n := by
  rw [zext32_toNat hn]
  exact ⟨Int.natCast_nonneg _, by exact_mod_cast v.isLt⟩

/-- Settles O24: the range is that of the extension the form of the field makes. -/
theorem fieldRangesHold : Obligations.FieldRangesHold := by
  intro s c f
  rw [decodeFrame_get]
  unfold fieldInt
  generalize c + fieldOffset s.params f = i
  generalize fieldForm f = form
  cases form with
  | signed16 => exact sext32_half_range (get16 s i)
  | unsigned16 => exact (zext32_range (by decide) (get16 s i)).imp_right Int.le_of_lt_add_one
  | q16 => exact ⟨(get32 s i).le_toInt, (get32 s i).toInt_le⟩
  | byte => exact (zext32_range (by decide) (get8 s i)).imp_right Int.le_of_lt_add_one

/-! ### The worked values (42_decoder.md R96, R97) -/

/-- Yaw bytes D2 04 decode to 0x04D2, which is 1234. -/
theorem fieldScaled_yaw_of_bytes {s : State} {c : Nat}
    (h0 : get8 s (c + s.params.fieldOffsets.yaw) = 0xD2) (h1 : get8 s (c + s.params.fieldOffsets.yaw + 1) = 0x04) :
    fieldScaled s.params .yaw (decodeFrame s c).yaw = 1234 / (s.params.fieldScales.yaw : ℚ) := by
  have hraw : (decodeFrame s c).yaw = 0x04D2 := by
    refine fieldsRoundTrip s c .yaw 0x04D2 ⟨by decide, by decide⟩ fun k hk => ?_
    match k, hk with
    | 0, _ => exact h0
    | 1, _ => exact h1
  rw [hraw]
  rfl

/-- Altitude bytes 00 00 FF FF decode to 0xFFFF0000, which is -65536. -/
theorem fieldScaled_altitude_of_bytes {s : State} {c : Nat} (h0 : get8 s (c + s.params.fieldOffsets.altitude) = 0x00)
    (h1 : get8 s (c + s.params.fieldOffsets.altitude + 1) = 0x00)
    (h2 : get8 s (c + s.params.fieldOffsets.altitude + 2) = 0xFF)
    (h3 : get8 s (c + s.params.fieldOffsets.altitude + 3) = 0xFF) :
    fieldScaled s.params .altitude (decodeFrame s c).altitude = -65536 / (s.params.fieldScales.altitude : ℚ) := by
  have hraw : (decodeFrame s c).altitude = 0xFFFF0000 := by
    refine fieldsRoundTrip s c .altitude 0xFFFF0000 trivial fun k hk => ?_
    match k, hk with
    | 0, _ => exact h0
    | 1, _ => exact h1
    | 2, _ => exact h2
    | 3, _ => exact h3
  rw [hraw]
  rfl

/-- Settles O25: this hardware's clauses are the general ones at its offsets 4 and 12 and its scales 100 and 65536. -/
theorem workedFieldValues : Obligations.WorkedFieldValues := by
  intro s c o at4
  refine ⟨fieldScaled_yaw_of_bytes, ?_, fun hp h0 h1 => ?_, ?_⟩
  · rintro ⟨h0, h1, h2, h3⟩
    exact fieldScaled_altitude_of_bytes h0 h1 h2 h3
  · have hyaw : s.params.fieldOffsets.yaw = 4 := by rw [hp]; rfl
    rw [fieldScaled_yaw_of_bytes (hyaw ▸ h0) (hyaw ▸ h1), hp]
    rfl
  · rintro hp ⟨h0, h1, h2, h3⟩
    have haltitude : s.params.fieldOffsets.altitude = 12 := by rw [hp]; rfl
    rw [fieldScaled_altitude_of_bytes (haltitude ▸ h0) (haltitude ▸ h1) (haltitude ▸ h2) (haltitude ▸ h3), hp]
    norm_num [Config.hardware, Config.wireScales]

/-! ### The bytes the decoder reads (42_decoder.md R92, R93) -/

/-- Settles O22: both the offsets and the decoder's fields are those of the rule by definition. -/
theorem decodeReadsTheWireFormat : Obligations.DecodeReadsTheWireFormat := ⟨fun _ _ => rfl, rfl⟩

theorem decodeFrame_congr {s t : State} {c d : Nat} (h : ∀ f, fieldValue s c f = fieldValue t d f) :
    decodeFrame s c = decodeFrame t d := by
  simp only [decodeFrame, h]

theorem mem_allFields (f : Field) : f ∈ allFields := by cases f <;> decide

/-- The frame offsets of the bytes of the fields, in the order of the fields. -/
def fieldBytes (p : Params) : List Nat :=
  allFields.flatMap fun f => (List.range (formWidth (fieldForm f))).map (fieldOffset p f + ·)

theorem mem_fieldBytes_iff {p : Params} {k : Nat} :
    k ∈ fieldBytes p ↔ ∃ f j, j < formWidth (fieldForm f) ∧ fieldOffset p f + j = k := by
  simp [fieldBytes, mem_allFields]

/-- This hardware's fields stand one behind the other, with no gap, from frame offset 4 on (30_encoding.md R54). -/
theorem fieldBytes_hardware : fieldBytes Config.hardware = List.range' 4 58 := by decide

/-- Settles O26: equal bytes give equal fields, and this hardware's fields stand without a gap. -/
theorem decodeReadsOnlyItsFields : Obligations.DecodeReadsOnlyItsFields := by
  constructor
  · intro s t c d hoffsets hbytes
    refine decodeFrame_congr fun f => ?_
    have hoffset : fieldOffset t.params f = fieldOffset s.params f := congrArg (·.get f) hoffsets.symm
    rw [fieldValue, fieldValue, hoffset]
    refine formValue_congr _ fun k hk => ?_
    rw [Nat.add_assoc, Nat.add_assoc]
    exact hbytes f k hk
  · intro k
    rw [← mem_fieldBytes_iff, fieldBytes_hardware, List.mem_range'_1]
    omega

end Sys2Proof.Machine
end

section
/-! SUPPORT. The poll loop (43_poller.md R103, R104): the Loop's turn in each case, and a write to `CTRL`. -/

namespace Sys2Proof.Machine

/-! ### The Loop's turn -/

/-- The Loop has observed `RUN = 0` (43_poller.md R104). -/
theorem loopTurn_of_stop_requested {s : State} (hr : s.running = true) (hu : s.transportUp = true) (hn : s.run = false) :
    loopTurn s = .next s.exitLoop := by
  simp [loopTurn, loopIter, hr, hu, hn]

/-- A command's outcome stands in `RESULT`, `ERR_BUSY`, `ERR_ILLEGAL` and `ERR_BOUNDS`, none of which `NextCore` writes
(41_frame_buffer.md R79). -/
theorem SameOutsideNextCore.commandOutcome {s t : State} (h : SameOutsideNextCore s t) :
    t.result = s.result ∧ t.errBusy = s.errBusy ∧ t.errIllegal = s.errIllegal ∧ t.errBounds = s.errBounds := by
  unfold SameOutsideNextCore at h
  rw [h]
  exact ⟨rfl, rfl, rfl, rfl⟩

/-- Settles O40. -/
theorem loopStepFollowsItsRule : Obligations.LoopStepFollowsItsRule := by
  intro s
  refine ⟨inv5 s, loopTurn_of_stop_requested, fun hr hu hn => ?_, fun s' h => ?_⟩
  · obtain ⟨o, ho⟩ := exists_nextCore_of_transport hu
    exact ⟨o, ho, loopTurn_of_running hr hu hn ho⟩
  · obtain ⟨-, rfl⟩ | ⟨-, -, -, rfl⟩ | ⟨-, -, -, o, ho, rfl⟩ := loopTurn_cases h
    · exact ⟨rfl, rfl, rfl, rfl⟩
    · exact ⟨rfl, rfl, rfl, rfl⟩
    · exact (SameOutsideNextCore.nextCore ho).commandOutcome

/-! ### `CTRL` -/

theorem hostWrite_ctrl {s : State} (hb : s.blockBase % 4 = 0) (v : Word) :
    hostWrite s.blockBase 4 v s = .next (s.writeCtrl v) :=
  hostWrite_reg hb (off := 0) (by decide) (by decide) v

/-- Bit 0 = 0 requests a stop, which only the Loop's next turn carries out (43_poller.md R103). -/
theorem writeCtrl_of_bit_clear {v : Word} (hv : v.getLsbD 0 = false) (s : State) :
    s.writeCtrl v = { s with run := false } := by
  rw [State.writeCtrl, hv, Bool.or_false]

/-- Bit 0 = 1 starts a stopped loop, and cancels a stop that has not been observed (43_poller.md R103). -/
theorem writeCtrl_of_bit_set {v : Word} (hv : v.getLsbD 0 = true) (s : State) :
    s.writeCtrl v = { s with run := true, running := true } := by
  rw [State.writeCtrl, hv, Bool.or_true]

/-- Settles O41. -/
theorem ctrlWriteStartsAndStops : Obligations.CtrlWriteStartsAndStops := by
  intro s v hb
  rw [hostWrite_ctrl hb]
  exact ⟨fun hv => congrArg _ (writeCtrl_of_bit_clear hv s), fun hv => congrArg _ (writeCtrl_of_bit_set hv s)⟩

end Sys2Proof.Machine
end

section
/-! SUPPORT. The error bits (60_exceptions.md R111 to R116): what each event does to them. A command and the Loop raise at
most one and clear none, and only a `STATUS` write and reset clear. -/

namespace Sys2Proof.Machine

/-- Settles O9. -/
theorem busyWriteChangesNothingElse : Obligations.BusyWriteChangesNothingElse :=
  fun _ w hb hr => hostWrite_cmd_of_running w hb hr

/-- Settles O28: the frame passes the slack check, so it is taken without an ingest, and it is short. -/
theorem nextSkipsAShortFrame : Obligations.NextSkipsAShortFrame := by
  intro s len hr hy hlen hclear hshort
  obtain rfl : frameLen s = len := hlen
  have hcode : nextResult .short (frameLen s) = (frameLen s).setWidth 32 <<< 8 ||| 3 := rfl
  have hexec := exec_next_of_stopped hr (nextCore_of_clear hy ((not_tooCloseToTail_iff s).mpr hclear))
  rw [takeFrame_of_lt_minFrame hshort, hcode, advance_eq] at hexec
  refine ⟨fun t ht => ?_, fun t ht => ?_, fun ht => ?_⟩ <;> simp only [ht] at hexec <;> exact hexec

/-! ### At most one error is raised -/

/-- `t` has the four error bits of `s`. -/
structure SameErrors (s t : State) : Prop where
  busy : t.errBusy = s.errBusy
  illegal : t.errIllegal = s.errIllegal
  bounds : t.errBounds = s.errBounds
  short : t.errShort = s.errShort

/-- `t` has the error bits of `s`, or those of `s` after one `raise` (60_exceptions.md R115). -/
def RaisesAtMostOne (s t : State) : Prop := SameErrors s t ∨ ∃ err, SameErrors (s.raise err) t

/-- The bits that one `raise` leaves, written out. -/
theorem RaisesAtMostOne.bits {s t : State} (h : RaisesAtMostOne s t) :
    (t.errBusy = s.errBusy ∧ t.errIllegal = s.errIllegal ∧ t.errBounds = s.errBounds ∧ t.errShort = s.errShort) ∨
    (t.errBusy = true ∧ t.errIllegal = s.errIllegal ∧ t.errBounds = s.errBounds ∧ t.errShort = s.errShort) ∨
    (t.errBusy = s.errBusy ∧ t.errIllegal = true ∧ t.errBounds = s.errBounds ∧ t.errShort = s.errShort) ∨
    (t.errBusy = s.errBusy ∧ t.errIllegal = s.errIllegal ∧ t.errBounds = true ∧ t.errShort = s.errShort) ∨
    (t.errBusy = s.errBusy ∧ t.errIllegal = s.errIllegal ∧ t.errBounds = s.errBounds ∧ t.errShort = true) := by
  obtain ⟨hbusy, hillegal, hbounds, hshort⟩ | ⟨err, hbusy, hillegal, hbounds, hshort⟩ := h
  · exact .inl ⟨hbusy, hillegal, hbounds, hshort⟩
  · cases err with
    | busy => exact .inr (.inl ⟨hbusy, hillegal, hbounds, hshort⟩)
    | illegal => exact .inr (.inr (.inl ⟨hbusy, hillegal, hbounds, hshort⟩))
    | bounds => exact .inr (.inr (.inr (.inl ⟨hbusy, hillegal, hbounds, hshort⟩)))
    | short => exact .inr (.inr (.inr (.inr ⟨hbusy, hillegal, hbounds, hshort⟩)))

/-- A `raise` clears nothing (60_exceptions.md R116). -/
theorem RaisesAtMostOne.keeps {s t : State} (h : RaisesAtMostOne s t) :
    (s.errBusy = true → t.errBusy = true) ∧ (s.errIllegal = true → t.errIllegal = true) ∧
      (s.errBounds = true → t.errBounds = true) ∧ (s.errShort = true → t.errShort = true) := by
  obtain ⟨hbusy, hillegal, hbounds, hshort⟩ | ⟨err, hbusy, hillegal, hbounds, hshort⟩ := h <;>
    rw [hbusy, hillegal, hbounds, hshort]
  · exact ⟨id, id, id, id⟩
  · simp +contextual

/-- The answer of a command is no error. -/
theorem RaisesAtMostOne.setResult {s t : State} (h : RaisesAtMostOne s t) (w : Word) :
    RaisesAtMostOne s (t.setResult w) := by
  obtain ⟨hbusy, hillegal, hbounds, hshort⟩ | ⟨err, hbusy, hillegal, hbounds, hshort⟩ := h
  · exact .inl ⟨hbusy, hillegal, hbounds, hshort⟩
  · exact .inr ⟨err, hbusy, hillegal, hbounds, hshort⟩

/-! ### `ERR_SHORT` in `NextCore` -/

theorem advance_errShort (start : Nat) (s : State) : (advance start s).errShort = s.errShort := by
  obtain ⟨t, n, -, e⟩ | ⟨t, n, -, e⟩ | ⟨n, -, e⟩ := advance_cases start s <;> rw [e] <;> rfl

theorem ingest_errShort (a : Nat) (s : State) : (ingest a s).errShort = s.errShort := by
  have hsame := ingest_sameOutsideIngest a s
  rw [SameOutsideIngest] at hsame
  rw [hsame]

/-- A frame that is taken raises `ERR_SHORT` or leaves it (41_frame_buffer.md R79). -/
theorem takeFrame_errShort (s : State) :
    (takeFrame s).state.errShort = s.errShort ∨ (takeFrame s).state.errShort = true := by
  obtain ⟨-, e⟩ | ⟨-, e⟩ := takeFrame_cases s <;> rw [e]
  · exact .inl (advance_errShort ..)
  · exact .inr (advance_errShort ..)

theorem takeIfLocked_errShort (s : State) :
    (takeIfLocked s).state.errShort = s.errShort ∨ (takeIfLocked s).state.errShort = true := by
  by_cases hy : s.sync = .locked
  · rw [takeIfLocked_of_locked hy]
    exact takeFrame_errShort s
  · rw [takeIfLocked_of_ne hy]
    exact .inl rfl

theorem nextCore_errShort {s : State} {o : FrameOutcome} (h : nextCore s = .ok o) :
    o.state.errShort = s.errShort ∨ o.state.errShort = true := by
  obtain ⟨-, -, -, rfl⟩ | ⟨-, -, rfl⟩ | ⟨-, -, -, -, rfl⟩ | ⟨-, -, -, rfl⟩ := nextCore_cases h
  · exact .inl rfl
  · exact takeFrame_errShort s
  · exact ingest_errShort s.rxq.length s ▸ takeFrame_errShort (ingest s.rxq.length s)
  · exact ingest_errShort s.rxq.length s ▸ takeIfLocked_errShort (ingest s.rxq.length s)

/-- `NextCore` raises `ERR_SHORT` or nothing (60_exceptions.md R114). -/
theorem nextCore_raisesAtMostOne {s : State} {o : FrameOutcome} (h : nextCore s = .ok o) :
    RaisesAtMostOne s o.state := by
  obtain ⟨-, hbusy, hillegal, hbounds⟩ := (SameOutsideNextCore.nextCore h).commandOutcome
  obtain hshort | hshort := nextCore_errShort h
  · exact .inl ⟨hbusy, hillegal, hbounds, hshort⟩
  · exact .inr ⟨.short, hbusy, hillegal, hbounds, hshort⟩

/-! ### The events -/

/-- What an event does to the error bits: at most one `raise`, a `STATUS` write, or reset (60_exceptions.md R116). -/
theorem Effect.errors {s s' : State} {e : Event} (h : Effect s e s') :
    RaisesAtMostOne s s' ∨ (∃ v, e = .hostWrite (s.blockBase + 0x004) 4 v ∧ s' = s.clearErrors v) ∨ e = .reset := by
  cases h with
  | raised v err => exact .inl (.inr ⟨err, rfl, rfl, rfl, rfl⟩)
  | outOfBounds v => exact .inl (.inr ⟨.bounds, rfl, rfl, rfl, rfl⟩)
  | nextCommand w _ _ ho => exact .inl ((nextCore_raisesAtMostOne ho).setResult w)
  | loopIterated _ _ ho => exact .inl (nextCore_raisesAtMostOne ho)
  | statusWritten v => exact .inr (.inl ⟨v, rfl, rfl⟩)
  | reset => exact .inr (.inr rfl)
  | _ => exact .inl (.inl ⟨rfl, rfl, rfl, rfl⟩)

/-- Settles O10: a `CMD` write is neither a `STATUS` write nor reset. -/
theorem commandRaisesAtMostOneError : Obligations.CommandRaisesAtMostOneError := by
  intro s s' w h
  have heff : Effect s (.hostWrite (s.blockBase + 0x008) 4 w) s' := perform_effect h
  obtain hraise | ⟨v, he, -⟩ | he := heff.errors
  · exact hraise.bits
  · simp at he
  · cases he

/-- A `STATUS` write takes a bit only where a 1 is written (10_state.md R26). -/
theorem written_of_cleared {err bit : Bool} (herr : err = true) (hlost : (err && !bit) = false) : bit = true := by
  simpa [herr] using hlost

/-- Settles O57: neither the `STATUS` write nor reset can be the Loop's turn, so each was the head of `script`. -/
theorem errorBitsAreSticky : Obligations.ErrorBitsAreSticky := by
  intro s s' h
  obtain ⟨e, rest, hscript, heff⟩ := step_effect h
  obtain hraise | ⟨v, rfl, rfl⟩ | rfl := heff.errors
  · exact .inl hraise.keeps
  · exact .inr (.inl ⟨v, rest, hscript.resolve_right (by simp), written_of_cleared, written_of_cleared,
      written_of_cleared, written_of_cleared⟩)
  · exact .inr (.inr ⟨rest, hscript.resolve_right (by simp)⟩)

end Sys2Proof.Machine
end

section
/-! SUPPORT. What stops a step (60_exceptions.md R110, U1, U2, logs 8 to 10): with a transport every command and every Loop
step completes, and a host access stops only where it is not supported. -/

namespace Sys2Proof.Machine

/-! ### Commands and the Loop -/

/-- The result `r` of a step from `s` is a next state, or the fault of a transport that is gone (log 10). -/
def StopsOnlyWithoutTransport (s : State) (r : StepResult) : Prop :=
  (∃ s', r = .next s') ∨ (s.transportUp = false ∧ r = .fault .transportGone)

theorem StopsOnlyWithoutTransport.next (s t : State) : StopsOnlyWithoutTransport s (.next t) := .inl ⟨t, rfl⟩

theorem refill_of_gone {s : State} (hu : s.transportUp = false) (cont : State → FrameOutcome) :
    refill s cont = .error .transportGone := by simp [refill, avail, hu]

/-- Everything `NextCore` can answer (U2): an outcome, or the fault of a transport that is gone. -/
theorem nextCore_ok_or_gone (s : State) :
    (∃ o, nextCore s = .ok o) ∨ (s.transportUp = false ∧ nextCore s = .error .transportGone) := by
  cases hu : s.transportUp with
  | true => exact .inl (exists_nextCore_of_transport hu)
  | false =>
    by_cases hy : s.sync = .locked
    · cases hclose : tooCloseToTail s with
      | false => exact .inl ⟨_, nextCore_of_clear hy hclose⟩
      | true => exact .inr ⟨rfl, (nextCore_of_close hy hclose).trans (refill_of_gone hu _)⟩
    · exact .inr ⟨rfl, (nextCore_of_not_locked hy).trans (refill_of_gone hu _)⟩

theorem whenStopped_stops {s : State} {act : State → StepResult} (h : StopsOnlyWithoutTransport s (act s)) :
    StopsOnlyWithoutTransport s (whenStopped s act) := by
  cases hr : s.running with
  | true => rw [whenStopped_of_running hr]; exact .next s _
  | false => rwa [whenStopped_of_stopped hr]

theorem extract_stops (idx w : Nat) (value : State → Word) (s : State) :
    StopsOnlyWithoutTransport s (extract idx w value s) := by
  refine whenStopped_stops ?_
  split <;> exact .next s _

theorem execNext_stops (s : State) : StopsOnlyWithoutTransport s (execNext s) := by
  refine whenStopped_stops ?_
  obtain ⟨o, ho⟩ | ⟨hu, ho⟩ := nextCore_ok_or_gone s <;> rw [ho]
  · exact .next s _
  · exact .inr ⟨hu, rfl⟩

theorem exec_stops (i : Instr) (s : State) : StopsOnlyWithoutTransport s (exec i s) := by
  cases i with
  | nop => rw [exec_nop, execNop]; exact whenStopped_stops (.next s _)
  | next => exact execNext_stops s
  | find idx => rw [exec_find, execFind]; exact whenStopped_stops (.next s _)
  | ext8u idx => rw [exec_ext8u, execExt8u]; exact extract_stops idx _ _ s
  | ext16u idx => rw [exec_ext16u, execExt16u]; exact extract_stops idx _ _ s
  | ext16s idx => rw [exec_ext16s, execExt16s]; exact extract_stops idx _ _ s
  | ext32s idx => rw [exec_ext32s, execExt32s]; exact extract_stops idx _ _ s
  | clear => rw [exec_clear, execClear]; exact whenStopped_stops (.next s _)
  | snap => exact .next s _

theorem writeOffset_stops (off : Nat) (v : Word) (s : State) :
    StopsOnlyWithoutTransport s (writeOffset off v s) := by
  obtain ⟨i, -, -, e⟩ | ⟨-, e⟩ | ⟨r, -, -, e⟩ | ⟨-, e⟩ | ⟨-, e⟩ | ⟨-, -, -, -, e⟩ := writeOffset_cases off v s <;> rw [e]
  · exact exec_stops i s
  · exact .next s _
  · exact whenStopped_stops (.next s _)
  · exact .next s _
  · exact .next s _
  · exact .next s _

theorem loopTurn_of_stopped {s : State} (hr : s.running = false) : loopTurn s = .next s := by simp [loopTurn, hr]

/-- Without a transport the running Loop has no next step (U2, log 10). -/
theorem loopTurn_of_gone {s : State} (hr : s.running = true) (hu : s.transportUp = false) :
    loopTurn s = .fault .transportGone := by simp [loopTurn, loopIter, hr, hu]

theorem loopTurn_stops (s : State) : StopsOnlyWithoutTransport s (loopTurn s) := by
  cases hr : s.running with
  | false => rw [loopTurn_of_stopped hr]; exact .next s _
  | true =>
    cases hu : s.transportUp with
    | false => exact .inr ⟨hu, loopTurn_of_gone hr hu⟩
    | true =>
      cases hn : s.run with
      | false => rw [loopTurn_of_stop_requested hr hu hn]; exact .next s _
      | true =>
        obtain ⟨o, ho⟩ := exists_nextCore_of_transport hu
        rw [loopTurn_of_running hr hu hn ho]
        exact .next s _

/-! ### Host accesses -/

/-- A host access of 4 bytes at a multiple of 4 in the window (20_memory.md R37, R44). -/
def SupportedAccess (s : State) (addr bytes : Nat) : Prop :=
  s.blockBase ≤ addr ∧ addr < s.blockBase + 4096 ∧ bytes = 4 ∧ addr % 4 = 0

/-- The event is a host access of `bytes` bytes at `addr`. -/
def Event.Accesses (e : Event) (addr bytes : Nat) : Prop :=
  e = .hostRead addr bytes ∨ ∃ v, e = .hostWrite addr bytes v

/-- The faults of an access are those of one that is not supported (logs 8, 9). -/
theorem accessOffset_error {s : State} {addr bytes : Nat} {f : Fault} (h : accessOffset addr bytes s = .error f) :
    f ≠ .transportGone ∧ ¬ SupportedAccess s addr bytes := by
  unfold accessOffset at h
  rw [SupportedAccess]
  split at h
  next hwindow =>
    cases h
    rw [Config.windowSize] at hwindow
    exact ⟨nofun, by omega⟩
  next =>
    split at h
    next hwidth =>
      cases h
      exact ⟨nofun, fun ⟨_, _, h4, _⟩ => hwidth h4⟩
    next =>
      split at h <;> cases h
      next halign => exact ⟨nofun, fun ⟨_, _, _, h0⟩ => halign h0⟩

theorem hostWrite_of_ok {s : State} {addr bytes off : Nat} (v : Word) (h : accessOffset addr bytes s = .ok off) :
    hostWrite addr bytes v s = writeOffset off v s := by simp only [hostWrite, h]

/-- Everything that can stop an event: the transport, or the address or width of a host access. -/
theorem perform_stops (e : Event) (s : State) :
    StopsOnlyWithoutTransport s (perform e s) ∨
    ∃ addr bytes f, e.Accesses addr bytes ∧ accessOffset addr bytes s = .error f ∧ perform e s = .fault f := by
  cases e with
  | hostRead addr bytes =>
    cases ha : accessOffset addr bytes s with
    | error f => exact .inr ⟨addr, bytes, f, .inl rfl, ha, hostRead_of_error ha⟩
    | ok off => exact .inl (.inl ⟨_, hostRead_of_ok ha⟩)
  | hostWrite addr bytes v =>
    cases ha : accessOffset addr bytes s with
    | error f => exact .inr ⟨addr, bytes, f, .inr ⟨v, rfl⟩, ha, hostWrite_of_error v ha⟩
    | ok off =>
      rw [perform, hostWrite_of_ok v ha]
      exact .inl (writeOffset_stops off v s)
  | loop => exact .inl (loopTurn_stops s)
  | envAppend bytes => exact .inl (.next s _)
  | transportGone => exact .inl (.next s _)
  | reset => exact .inl (.next s _)

/-- Everything that can stop a step: the transport, or a pending host access that is not supported. -/
theorem step_stops (s : State) :
    StopsOnlyWithoutTransport s (step s) ∨
    ∃ f, f ≠ .transportGone ∧ step s = .fault f ∧ ∃ e rest addr bytes,
      s.script = e :: rest ∧ e.Accesses addr bytes ∧ ¬ SupportedAccess s addr bytes := by
  cases hs : s.script with
  | nil => rw [step_of_nil hs]; exact .inl (loopTurn_stops s)
  | cons e rest =>
    rw [step_of_cons hs]
    obtain hstops | ⟨addr, bytes, f, he, ha, hf⟩ := perform_stops e (s.setScript rest)
    · exact .inl hstops
    · obtain ⟨hne, hunsupported⟩ := accessOffset_error ha
      exact .inr ⟨f, hne, hf, e, rest, addr, bytes, rfl, he, hunsupported⟩

/-- Settles O60: a step completes, or loses its Loop's turn or `NEXT` with the transport, or is an unsupported access. -/
theorem onlyTheEnvironmentStopsAStep : Obligations.OnlyTheEnvironmentStopsAStep := by
  intro s accesses supported
  have haccesses : ∀ {e rest addr bytes}, s.script = e :: rest → e.Accesses addr bytes → accesses addr bytes := by
    rintro e rest addr bytes hs (rfl | ⟨v, rfl⟩)
    · exact ⟨rest, .inl hs⟩
    · exact ⟨rest, .inr ⟨v, hs⟩⟩
  have hgone : s.transportUp = false → s.running = true → (s.script = [] ∨ ∃ rest, s.script = .loop :: rest) →
      step s = .fault .transportGone := by
    rintro hu hr (hs | ⟨rest, hs⟩)
    · rw [step_of_nil hs, loopTurn_of_gone hr hu]
    · rw [step_of_cons hs]
      exact loopTurn_of_gone (s := s.setScript rest) hr hu
  obtain (⟨s', hstep⟩ | ⟨hu, hstep⟩) | ⟨f, hne, hstep, e, rest, addr, bytes, hs, he, hunsupported⟩ := step_stops s <;>
    rw [hstep] at hgone ⊢
  · exact ⟨nofun, fun _ _ => ⟨s', rfl⟩, hgone, nofun⟩
  · refine ⟨nofun, fun hup => ?_, hgone, fun f hf => ?_⟩
    · cases hu.symm.trans hup
    · cases hf
      exact .inl ⟨rfl, hu⟩
  · refine ⟨nofun, fun _ hall => ?_, hgone, fun f' hf => ?_⟩
    · exact absurd (hall addr bytes (haccesses hs he)) hunsupported
    · cases hf
      exact .inr ⟨hne, addr, bytes, haccesses hs he, hunsupported⟩

end Sys2Proof.Machine
end

section
/-! SUPPORT. Reset, and what the host reads straight after it (70_reset_and_hazards.md R126, R127). -/

namespace Sys2Proof.Machine

@[simp] theorem Sample.zero_get (f : Field) : Sample.zero.get f = 0 := by
  cases f <;> rfl

/-- Settles O48: the next state is `applyReset`, which keeps the queue and takes every field of FSYNC from
`State.reset`. -/
theorem resetPutsEveryRegisterAtItsValue : Obligations.ResetPutsEveryRegisterAtItsValue := by
  intro s
  refine ⟨s.applyReset, rfl, ?bufLen, ?bytes, ?sync, ?cur, ?scanFrom, ?pub, ?pubValid, ?view, ?viewValid, ?viewSeqn,
    ?countersErrorsAndRun⟩
  case pub => exact Sample.zero_get
  case view => exact Sample.zero_get
  case countersErrorsAndRun => exact ⟨rfl, rfl, rfl, rfl, rfl, rfl, rfl, rfl, rfl, rfl, State.applyReset_rxq s⟩
  all_goals rfl

/-- After reset only `CTRL`, `STATUS` and `BUF_CAP` do not read 0 (70_reset_and_hazards.md R127). -/
theorem readReg_reset_eq_zero {r : Reg} (hctrl : r ≠ .ctrl) (hstatus : r ≠ .status) (hcap : r ≠ .bufCap) :
    readReg r State.reset = 0 := by
  cases r with
  | ctrl => exact absurd rfl hctrl
  | status => exact absurd rfl hstatus
  | bufCap => exact absurd rfl hcap
  | view f => exact Sample.zero_get f
  | _ => rfl

/-- Settles O49: an offset is reserved, or it is that of one register. -/
theorem registersAfterReset : Obligations.RegistersAfterReset := by
  refine ⟨readOffset_regOffset .ctrl _, readOffset_regOffset .status _, readOffset_regOffset .bufCap _, ?_⟩
  intro off h0 h4 h28
  cases hr : regAt off with
  | none => rw [readOffset, hr]
  | some r =>
    obtain rfl := regOffset_of_regAt hr
    rw [readOffset_regOffset]
    exact readReg_reset_eq_zero (fun h => h0 (congrArg regOffset h)) (fun h => h4 (congrArg regOffset h))
      (fun h => h28 (congrArg regOffset h))

end Sys2Proof.Machine
end

section
/-! SUPPORT. A staged word of the opcode table and the host write that carries it (logs 2, 16). -/

namespace Sys2Proof.Machine

/-- The register that an opcode-table row's words are written to (log 16). -/
def tableReg (nbits : Nat) : Reg := if nbits = 0 then .snap else .cmd

theorem withFetchWord_script (s : State) (nbits w : Nat) :
    (s.withFetchWord nbits w).script =
      .hostWrite (s.blockBase + regOffset (tableReg nbits)) 4 (tableWord nbits w) :: s.script := rfl

/-- The host write of a table word carries the instruction of that word. -/
theorem decode_of_decodeTableWord {nbits w : Nat} {i : Instr} (h : decodeTableWord nbits w = some i) :
    decode ⟨regOffset (tableReg nbits), tableWord nbits w⟩ = .ok i := by
  unfold decodeTableWord at h
  split at h
  next hsnap =>
    cases h
    rw [tableReg, if_pos hsnap]
    exact decode_snap _
  next hcmd =>
    rw [tableReg, if_neg hcmd]
    split at h
    next => cases h
    next =>
      rw [decodeBytes_lanesOf] at h
      split at h
      next hd =>
        cases h
        exact (decode_cmd _).trans hd
      next => cases h

/-- Settles O7: the staged host write is the head of `script` and decodes to the word's instruction, so it is the step
of O6. -/
theorem stagedWordRunsNext : Obligations.StagedWordRunsNext := by
  intro s nbits w i hb hw
  exact stepRunsTheDecodedInstruction (s.withFetchWord nbits w) ⟨regOffset (tableReg nbits), tableWord nbits w⟩ i
    s.script hb (withFetchWord_script s nbits w) (decode_of_decodeTableWord hw)

end Sys2Proof.Machine
end
